-- ==== Sys2Proof/Word.lean ====
section
/-! DEFINITION. The word types of the block and the fixed constants of rules R5 and R7. -/

namespace Sys2Proof

/-- A symbol: a byte value 0..255, the index of symbol space (R5, R32). -/
abbrev Sym := BitVec 8

/-- A 9-bit index of node space or leaf space (R7, R32). -/
abbrev Idx := BitVec 9

/-- A command word of the one format CMD16 (R43). -/
abbrev CmdWord := BitVec 16

/-- NSYM: the alphabet size (R5). -/
abbrev nsym : Nat := 256

/-- MAXNODES: the number of arena entries (R7). -/
abbrev maxNodes : Nat := 2 * nsym - 1

/-- NIL: the index that is never a node, "no child" (R7). -/
abbrev nilIdx : Idx := 0x1FF#9

/-- Every symbol, in ascending order (R5). -/
def allSyms : List Sym := (List.range nsym).map (BitVec.ofNat 8)

end Sys2Proof
end

