-- ==== Sys2Proof/Config.lean ====
section
/-! DEFINITION. What an implementation fixes (R6, R8, R31) and the free values: the values the spec
leaves unspecified after a command that goes on (R21, R22, R23, R81, R100, R105). -/

namespace Sys2Proof

/-- The configuration of one block: FREQ_BITS, any width the spec admits (R6). State carries it, so
that a statement about every state holds for every width; no step changes it. Log 1. -/
structure Config where
  freqBits : Nat
  pos : 1 ≤ freqBits
  le : freqBits ≤ 2040
  deriving DecidableEq, Repr

/-- The spec's reference configuration, FREQ_BITS = 64 (R6). DESIGN CHOICE for `State.reset`, log 1. -/
def Config.reference : Config := ⟨64, by decide, by decide⟩

/-- A result register whose port holds an unspecified value while a BUILD is in progress (R105). -/
inductive BusyPort where
  | leafcnt | nodecnt | root | total | maxfreq | fwbytes | resp | rootLeaf
  deriving DecidableEq, Repr

/-- Which unspecified value is meant. `draw` is State's counter, so that two draws are unrelated. -/
inductive FreeKey where
  /-- The fields of an arena entry that no BUILD has written (R21, R30). -/
  | nodeTag (draw idx : Nat)
  | nodeSym (draw idx : Nat)
  | nodeFreq (draw idx : Nat)
  | nodeLeft (draw idx : Nat)
  | nodeRight (draw idx : Nat)
  /-- The working sequence outside a BUILD: its length and its elements (R22). -/
  | workLength (draw : Nat)
  | workEntry (draw pos : Nat)
  /-- The allocation counter outside a BUILD (R23). -/
  | allocNext (draw : Nat)
  /-- The allocation counter once a BUILD has ended (R23). -/
  | allocNextBuilt (draw : Nat)
  /-- A result register's port while BUSY, `left` edges before completion (R105). -/
  | busy (draw left : Nat) (port : BusyPort)
  deriving DecidableEq, Repr

/-- FREE VALUE: the unspecified value named by the key, `w` bits wide. It has no body, so nothing can be
proved of it. Log 6, log 12. -/
opaque Config.freeBits (w : Nat) (key : FreeKey) : BitVec w

/-- BUILD_LATENCY less one, as a function of the table's 256 values (R8, R110). It has no body: a claim
holds for every latency. Log 9. -/
opaque Config.latencyLessOne (table : List Nat) : Nat

end Sys2Proof
end

