-- ==== Sys2Proof/Syntax.lean ====
section
/-! DEFINITION. The instructions: one constructor per row of spec/opcode_table.json. -/

namespace Sys2Proof

/-- The seven commands of HTB-CMD (R46). The frequency operand of SET_FREQ and LOAD_PAIR is no part of
the word: it is `din`, sampled with the word (R44). -/
inductive Instr where
  /-- CLEAR (R81). -/
  | clear
  /-- SET_FREQ sym, with the count on `din` (R53). -/
  | setFreq (sym : Sym)
  /-- LOAD_PAIR sym, with the frequency on `din` (R54). -/
  | loadPair (sym : Sym)
  /-- BUILD (R56). -/
  | build
  /-- READ_NODE idx (R75). -/
  | readNode (idx : Idx)
  /-- READ_LEAF k (R76). -/
  | readLeaf (k : Idx)
  /-- READ_FREQ sym (R77). -/
  | readFreq (sym : Sym)
  deriving DecidableEq, Repr

end Sys2Proof
end

