-- ==== Sys2Proof/WellFormed.lean ====
section
/-! DEFINITION. The operand ranges of a command (R45, R51). An `Instr` keeps them by its types; a line of
the assembler, whose operands are plain numbers, is checked here. -/

namespace Sys2Proof

/-- A symbol operand as R51 writes it: a number, or a character literal. -/
inductive SymOperand where
  | num (n : Nat)
  | char (c : Char)
  deriving DecidableEq, Repr

/-- The byte value a symbol operand stands for (R51; ASCII codes, 93 G2). -/
def SymOperand.value : SymOperand → Nat
  | .num n => n
  | .char c => c.toNat

/-- One line of the textual form of R51, operands as written. -/
inductive AsmLine where
  | clear
  | setFreq (sym : SymOperand) (freq : Nat)
  | loadPair (sym : SymOperand) (freq : Nat)
  | build
  | readNode (idx : Nat)
  | readLeaf (idx : Nat)
  | readFreq (sym : SymOperand)
  deriving DecidableEq, Repr

/-- `<sym>` is a number 0..255, or a character literal of an ASCII character (R51). -/
def SymOperand.wf : SymOperand → Bool
  | .num n => n < 256
  | .char c => c.toNat < 128

/-- `<idx>` is a number 0..511 (R51). -/
def idxWf (idx : Nat) : Bool := idx < 512

/-- `<freq>` is a number 0..2^FREQ_BITS − 1 (R51). -/
def freqWf (c : Config) (freq : Nat) : Bool := freq < 2 ^ c.freqBits

/-- Every operand of the line is in its range (R51). -/
def AsmLine.wf (c : Config) : AsmLine → Bool
  | .clear | .build => true
  | .setFreq sym freq | .loadPair sym freq => sym.wf && freqWf c freq
  | .readNode idx | .readLeaf idx => idxWf idx
  | .readFreq sym => sym.wf

/-- An instruction's operands are in range: the symbol below 256 and the index below 512 (R45). -/
def Instr.wf : Instr → Bool
  | .clear | .build => true
  | .setFreq sym | .loadPair sym | .readFreq sym => sym.toNat < 256
  | .readNode idx | .readLeaf idx => idx.toNat < 512

end Sys2Proof
end

