-- ==== Sys2Proof/Decode.lean ====
section
/-! DEFINITION. The decoder of R50, total on every 16-bit word, and the encoder of R46. -/

namespace Sys2Proof

/-- Why a word is no command (R47, R48). -/
inductive IllegalReason where
  /-- `rsv = cmd[11:9]` is not zero (R48). -/
  | reservedBits
  /-- The opcode is one of 0x7 to 0xF (R47). -/
  | reservedOpcode
  /-- `cmd[8]` is not zero in a sym form (R48). -/
  | symBitEight
  /-- `arg` is not zero in a none form (R48). -/
  | argNotZero
  deriving DecidableEq, Repr

/-- What a word is: one of the seven commands, or illegal (R49). -/
inductive Decoded where
  | instr (i : Instr)
  | illegal (why : IllegalReason)
  deriving DecidableEq, Repr

/-- Field `op = cmd[15:12]` (R43). -/
def opField (w : CmdWord) : BitVec 4 := w.extractLsb' 12 4

/-- Field `rsv = cmd[11:9]` (R43). -/
def rsvField (w : CmdWord) : BitVec 3 := w.extractLsb' 9 3

/-- Field `arg = cmd[8:0]` (R43). -/
def argField (w : CmdWord) : BitVec 9 := w.extractLsb' 0 9

/-- The none form: `arg` must be 0x000 (R45). -/
def noneForm (arg : BitVec 9) (i : Instr) : Decoded :=
  if arg = 0#9 then .instr i else .illegal .argNotZero

/-- The sym form: `arg[8]` must be 0, and the symbol is `arg[7:0]` (R45). -/
def symForm (arg : BitVec 9) (mk : Sym → Instr) : Decoded :=
  if arg.extractLsb' 8 1 = 0#1 then .instr (mk (arg.extractLsb' 0 8)) else .illegal .symBitEight

/-- The idx form: the index is `arg[8:0]`, whole; its range is checked at execution (R45). -/
def idxForm (arg : BitVec 9) (mk : Idx → Instr) : Decoded := .instr (mk arg)

/-- The decoder of R50. It does not look at the state. -/
def decode (w : CmdWord) : Decoded :=
  let arg := argField w
  if rsvField w ≠ 0#3 then .illegal .reservedBits
  else match (opField w).toNat with
    | 0x0 => noneForm arg .clear
    | 0x1 => symForm arg .setFreq
    | 0x2 => symForm arg .loadPair
    | 0x3 => noneForm arg .build
    | 0x4 => idxForm arg .readNode
    | 0x5 => idxForm arg .readLeaf
    | 0x6 => symForm arg .readFreq
    | _ => .illegal .reservedOpcode

/-- The word of an instruction, from the encoding patterns of R46. -/
def encode : Instr → CmdWord
  | .clear => 0b0000000000000000#16
  | .setFreq sym => 0b00010000#8 ++ sym
  | .loadPair sym => 0b00100000#8 ++ sym
  | .build => 0b0011000000000000#16
  | .readNode idx => 0b0100000#7 ++ idx
  | .readLeaf k => 0b0101000#7 ++ k
  | .readFreq sym => 0b01100000#8 ++ sym

/-- One row of the opcode map: a word is this command exactly when `word & mask = pattern` (R46). -/
structure OpcodeRow where
  mnemonic : String
  pattern : CmdWord
  mask : CmdWord
  deriving DecidableEq, Repr

/-- The opcode map of R46, row by row. -/
def opcodeRows : List OpcodeRow :=
  [⟨"CLEAR", 0x0000#16, 0xFFFF#16⟩,
   ⟨"SET_FREQ", 0x1000#16, 0xFF00#16⟩,
   ⟨"LOAD_PAIR", 0x2000#16, 0xFF00#16⟩,
   ⟨"BUILD", 0x3000#16, 0xFFFF#16⟩,
   ⟨"READ_NODE", 0x4000#16, 0xFE00#16⟩,
   ⟨"READ_LEAF", 0x5000#16, 0xFE00#16⟩,
   ⟨"READ_FREQ", 0x6000#16, 0xFF00#16⟩]

/-- Does the word match the row (R46)? -/
def OpcodeRow.hits (r : OpcodeRow) (w : CmdWord) : Bool := w &&& r.mask == r.pattern

/-- The mnemonic of an instruction, as the opcode map spells it (R46). -/
def mnemonic : Instr → String
  | .clear => "CLEAR"
  | .setFreq _ => "SET_FREQ"
  | .loadPair _ => "LOAD_PAIR"
  | .build => "BUILD"
  | .readNode _ => "READ_NODE"
  | .readLeaf _ => "READ_LEAF"
  | .readFreq _ => "READ_FREQ"

/-- The command word whose low `nbits` bits are those of `w`, every higher bit 0. A command is one word
with no byte order (R33, R43), so the opcode table's bit numbers are the word's own. -/
def tableWord (nbits w : Nat) : CmdWord := BitVec.ofNat 16 (w % 2 ^ nbits)

/-- The instruction this decoder reads from a word of the opcode table. -/
def decodeTableWord (nbits w : Nat) : Option Instr :=
  match decode (tableWord nbits w) with
  | .instr i => some i
  | .illegal _ => none

end Sys2Proof
end

