-- ==== Sys2Proof/Machine/State.lean ====
section
/-! DEFINITION. The machine's state as plain data (10_state.md), and its value after reset (R30, R100). -/

namespace Sys2Proof.Machine

/-- The mode field behind `STATUS.STATE` (R16). BUSY is not stored here: the block is BUSY exactly while
`Block.building` holds a BUILD in progress (R105, log 4). -/
inductive Mode where
  /-- The table may be loaded; no tree is valid. -/
  | idle
  /-- The tree, the leaf list and the statistics are valid and read-only. -/
  | built
  /-- An error was raised; only CLEAR and reset leave this state. -/
  | error
  deriving DecidableEq, Repr

/-- The result codes of R83. Codes 8..15 are never produced (R83), so there is no name for them. -/
inductive ErrCode where
  | ok | illegalCmd | badState | dupSymbol | zeroFreq | emptyTable | freqOverflow | badIndex
  deriving DecidableEq, Repr

/-- The tag of a node record: 0 is a leaf, 1 is internal (R21). -/
inductive Tag where
  | leaf | internal
  deriving DecidableEq, Repr

/-- One arena record of R21. -/
structure Node (w : Nat) where
  tag : Tag
  sym : Sym
  freq : BitVec w
  left : Idx
  right : Idx
  deriving DecidableEq, Repr

/-- What the host drives on the input ports of R42 at one rising edge of the clock. -/
structure PortIn (w : Nat) where
  rst : Bool
  cmdValid : Bool
  cmd : CmdWord
  din : BitVec w
  deriving DecidableEq, Repr

/-- Everything the block holds, for frequencies `w` bits wide (R13, R20 to R26). -/
structure Block (w : Nat) where
  /-- `STATUS.STATE`, BUSY apart (R16). -/
  mode : Mode
  /-- `STATUS.ROOT_LEAF` (R17). -/
  rootLeaf : Bool
  /-- `STATUS.ERR` (R18). -/
  err : ErrCode
  /-- `LEAFCNT` (R19). -/
  leafcnt : Idx
  /-- `NODECNT` (R19). -/
  nodecnt : Idx
  /-- `ROOT` (R19). -/
  root : Idx
  /-- `TOTAL` (R19). -/
  total : BitVec w
  /-- `MAXFREQ` (R19). -/
  maxfreq : BitVec w
  /-- `FWBYTES` (R19). -/
  fwbytes : BitVec 8
  /-- `RESP` (R25). -/
  resp : ErrCode
  /-- `ERRCMD` (R26). -/
  errcmd : CmdWord
  /-- `R_TAG` (R24). -/
  rTag : Tag
  /-- `R_SYM` (R24). -/
  rSym : Sym
  /-- `R_FREQ` (R24). -/
  rFreq : BitVec w
  /-- `R_LEFT` (R24). -/
  rLeft : Idx
  /-- `R_RIGHT` (R24). -/
  rRight : Idx
  /-- `R_IDX` (R24). -/
  rIdx : Idx
  /-- The frequency table `FREQ[0..255]` (R20). -/
  freq : Vector (BitVec w) 256
  /-- The entries of the node arena that a BUILD wrote, from index 0 up (R21). An entry that is not
  listed is unspecified, and reads as a free value (log 6, log 15). -/
  arena : List (Node w)
  /-- The hidden working sequence `WORK` (R22). -/
  work : List Idx
  /-- The hidden allocation counter `NEXT`, a free value after a BUILD, CLEAR and a reset edge (R23, log 6). -/
  nextIdx : Idx
  /-- A BUILD in progress: the number of edges until it completes (R105); none outside BUSY. -/
  building : Option Nat
  /-- The command word as sampled at the last accepting edge (R103). The model's own field, log 8. -/
  cmd : CmdWord
  /-- The frequency operand as sampled at the last accepting edge (R44, R103). The model's own field. -/
  din : BitVec w
  /-- What the host will drive next, first edge first (R42, R107). The model's own field, log 2. -/
  host : List (PortIn w)
  /-- How many free values have been drawn. The model's own field, log 6. -/
  draws : Nat
  deriving DecidableEq, Repr

/-- The machine's state: its configuration, which no step changes, and the block. -/
structure State where
  cfg : Config
  blk : Block cfg.freqBits
  deriving DecidableEq, Repr

/-- The reset value of every field (R30, R100). The spec gives no value for the arena, WORK and NEXT
(log 7), and the last four fields are the model's own (log 2, log 6, log 8): DESIGN CHOICE. -/
def Block.resetValue (w : Nat) : Block w where
  mode := .idle
  rootLeaf := false
  err := .ok
  leafcnt := 0#9
  nodecnt := 0#9
  root := nilIdx
  total := 0#w
  maxfreq := 0#w
  fwbytes := 0#8
  resp := .ok
  errcmd := 0x0000#16
  rTag := .leaf
  rSym := 0#8
  rFreq := 0#w
  rLeft := nilIdx
  rRight := nilIdx
  rIdx := nilIdx
  freq := Vector.replicate 256 0#w
  arena := []
  work := []
  nextIdx := 0#9
  building := none
  cmd := 0x0000#16
  din := 0#w
  host := []
  draws := 0

/-- The machine right after reset, for any configuration (R30, R100, R101). -/
def State.resetOf (c : Config) : State := ⟨c, Block.resetValue c.freqBits⟩

/-- The machine right after reset, in the spec's reference configuration (R6, log 1). -/
def State.reset : State := State.resetOf Config.reference

/-- The same configuration with another block. -/
def State.withBlock (s : State) (b : Block s.cfg.freqBits) : State := ⟨s.cfg, b⟩

/-- The reasons a step can stop the machine. There is none: the block never stops, because every
violation is the error entry of R82, which is a next state (log 18). -/
inductive Fault where
  deriving DecidableEq, Repr

/-- The reasons a step has no meaning. -/
inductive Refusal where
  /-- Raised by an arm of `exec` for an instruction that is not modelled: safe. No arm raises it. -/
  | notModelled (mnemonic : String)
  deriving DecidableEq, Repr

end Sys2Proof.Machine
end

