-- ==== Sys2Proof/Machine/Ops.lean ====
section
/-! DEFINITION. The shared operations: taking an error (R82), ignoring a command in ERROR (R92), the
legality table (R85), emptying the block (R81, R100), and the one write of the table (R53, R54). -/

namespace Sys2Proof.Machine

/-- The error entry of R82: exactly four writes, and nothing else. `cmd` is the word that raised it. -/
def raiseError {w : Nat} (code : ErrCode) (b : Block w) : Block w :=
  { b with mode := .error, err := code, errcmd := b.cmd, resp := code }

/-- A command in ERROR is ignored: it writes RESP with the current error code (R92). -/
def ignored {w : Nat} (b : Block w) : Block w := { b with resp := b.err }

/-- A command succeeds: it writes RESP with OK (R25). -/
def respondOk {w : Nat} (b : Block w) : Block w := { b with resp := .ok }

/-- The unspecified contents of WORK after CLEAR and reset: 0 to 256 indices, all of them free values
(R22, R81). Log 6. -/
def freeWork (draw : Nat) : List Idx :=
  (List.range ((Config.freeBits 9 (.workLength draw)).toNat % 257)).map
    (fun pos => Config.freeBits 9 (.workEntry draw pos))

/-- The one way out of ERROR, and the way to an empty block: what CLEAR (R81) and reset (R100) do to every
register, to the table, and to the storage that becomes unspecified. -/
def emptied {w : Nat} (b : Block w) : Block w :=
  { b with
    mode := .idle
    rootLeaf := false
    err := .ok
    leafcnt := 0#9
    nodecnt := 0#9
    root := nilIdx
    total := 0#w
    maxfreq := 0#w
    fwbytes := 0#8
    resp := .ok
    errcmd := 0x0000#16
    rTag := .leaf
    rSym := 0#8
    rFreq := 0#w
    rLeft := nilIdx
    rRight := nilIdx
    rIdx := nilIdx
    freq := Vector.replicate 256 0#w
    arena := []
    work := freeWork b.draws
    nextIdx := Config.freeBits 9 (.allocNext b.draws)
    draws := b.draws + 1 }

/-- The host's queue becomes `rest` (log 2). -/
def withHost {w : Nat} (rest : List (PortIn w)) (b : Block w) : Block w := { b with host := rest }

/-- The BUILD in progress becomes this one, or none (R105). -/
def withBuilding {w : Nat} (build : Option Nat) (b : Block w) : Block w := { b with building := build }

/-- The six read-out registers take a record and its index (R24, R75, R76). -/
def setReadOut {w : Nat} (tag : Tag) (sym : Sym) (freq : BitVec w) (left right idx : Idx) (b : Block w) :
    Block w :=
  { b with rTag := tag, rSym := sym, rFreq := freq, rLeft := left, rRight := right, rIdx := idx }

/-- `R_SYM` and `R_FREQ` take a table entry (R24, R77). -/
def setSymFreq {w : Nat} (sym : Sym) (freq : BitVec w) (b : Block w) : Block w :=
  { b with rSym := sym, rFreq := freq }

/-- Reset at an edge with `rst = 1`: the block is emptied, and a BUILD in progress is abandoned (R99, R100).
The sampled command is the reset state's (log 8). -/
def resetBlock {w : Nat} (b : Block w) : Block w :=
  { emptied b with building := none, cmd := 0x0000#16, din := 0#w }

/-- An entry of the legality table of R85. -/
inductive Legality where
  | executes | badState | ignored
  deriving DecidableEq, Repr

/-- The legality table of R85, a row per command and a column per state. BUSY has no column: no command
is accepted there (R104). -/
def legality : Instr → Mode → Legality
  | .clear,      _      => .executes
  | .setFreq _,  .idle  => .executes
  | .setFreq _,  .built => .badState
  | .setFreq _,  .error => .ignored
  | .loadPair _, .idle  => .executes
  | .loadPair _, .built => .badState
  | .loadPair _, .error => .ignored
  | .build,      .idle  => .executes
  | .build,      .built => .badState
  | .build,      .error => .ignored
  | .readNode _, .idle  => .badState
  | .readNode _, .built => .executes
  | .readNode _, .error => .ignored
  | .readLeaf _, .idle  => .badState
  | .readLeaf _, .built => .executes
  | .readLeaf _, .error => .ignored
  | .readFreq _, .idle  => .executes
  | .readFreq _, .built => .executes
  | .readFreq _, .error => .ignored

/-- The state check that runs before a command's own pseudocode (R85, R91). -/
def gate {w : Nat} (v : Legality) (b : Block w) (body : Block w) : Block w :=
  match v with
  | .executes => body
  | .badState => raiseError .badState b
  | .ignored => ignored b

/-- An accepted illegal word: ignored in ERROR (R92), else ILLEGAL_CMD (R84, R91). -/
def illegalWord {w : Nat} (b : Block w) : Block w :=
  match b.mode with
  | .error => ignored b
  | .idle | .built => raiseError .illegalCmd b

/-- `FREQ[sym] <- v` (R11, R20). -/
def writeFreq {w : Nat} (sym : Sym) (v : BitVec w) (b : Block w) : Block w :=
  { b with freq := b.freq.set sym.toNat v (by have := sym.isLt; omega) }

/-- The command port is sampled at the accepting edge, and at no other (R103). -/
def sample {w : Nat} (p : PortIn w) (b : Block w) : Block w := { b with cmd := p.cmd, din := p.din }

end Sys2Proof.Machine
end

