-- ==== Sys2Proof/Machine/Operands.lean ====
section
/-! DEFINITION. Reading the storage a command names: a table entry, an arena record, a node's frequency
(R11, R32, R35). -/

namespace Sys2Proof.Machine

/-- `FREQ[sym]` of a table (R11, R20). -/
def tableAt {w : Nat} (table : Vector (BitVec w) 256) (sym : Sym) : BitVec w :=
  table[sym.toNat]'(by have := sym.isLt; omega)

/-- `FREQ[sym]` (R11, R20). -/
def Block.freqAt {w : Nat} (b : Block w) (sym : Sym) : BitVec w := tableAt b.freq sym

/-- An arena record that no BUILD wrote: unspecified, so every field is a free value (R21). Log 6. -/
def freeNode (w draw idx : Nat) : Node w where
  tag := if Config.freeBits 1 (.nodeTag draw idx) = 0#1 then .leaf else .internal
  sym := Config.freeBits 8 (.nodeSym draw idx)
  freq := Config.freeBits w (.nodeFreq draw idx)
  left := Config.freeBits 9 (.nodeLeft draw idx)
  right := Config.freeBits 9 (.nodeRight draw idx)

/-- `NODE[i]`, where `nodes` are the written records from index 0 up and `draw` names the free values of
the others (R11, R21). -/
def nodeIn {w : Nat} (draw : Nat) (nodes : List (Node w)) (i : Idx) : Node w :=
  match nodes[i.toNat]? with
  | some n => n
  | none => freeNode w draw i.toNat

/-- `NODE[i]` (R11, R21). -/
def Block.nodeAt {w : Nat} (b : Block w) (i : Idx) : Node w := nodeIn b.draws b.arena i

/-- `NODE[i].freq` as an exact integer (R10). -/
def freqOf {w : Nat} (draw : Nat) (nodes : List (Node w)) (i : Idx) : Nat :=
  (nodeIn draw nodes i).freq.toNat

end Sys2Proof.Machine
end

