-- ==== Sys2Proof/Machine/Flags.lean ====
section
/-! DEFINITION. The status word and its fields (R15 to R18), the flag outputs (R28, R104), and the
byte width of the frequency field (R69). -/

namespace Sys2Proof.Machine

/-- The 4-bit code of a result (R83). -/
def ErrCode.code : ErrCode → BitVec 4
  | .ok => 0#4
  | .illegalCmd => 1#4
  | .badState => 2#4
  | .dupSymbol => 3#4
  | .zeroFreq => 4#4
  | .emptyTable => 5#4
  | .freqOverflow => 6#4
  | .badIndex => 7#4

/-- The tag bit of a node record (R21). -/
def Tag.bit : Tag → BitVec 1
  | .leaf => 0#1
  | .internal => 1#1

/-- The code of a mode in `STATUS.STATE` (R15, R16). -/
def Mode.code : Mode → BitVec 2
  | .idle => 0#2
  | .built => 2#2
  | .error => 3#2

/-- The code of BUSY in `STATUS.STATE` (R15, R16). -/
def busyCode : BitVec 2 := 1#2

/-- Is a BUILD in progress (R104, R105)? -/
def Block.busy {w : Nat} (b : Block w) : Bool := b.building.isSome

/-- `STATUS.STATE` as the port shows it (R15, R16, R105). -/
def Block.stateField {w : Nat} (b : Block w) : BitVec 2 := if b.busy then busyCode else b.mode.code

/-- `STATUS.ERR` as the port shows it: 0 while BUSY (R105). -/
def Block.errField {w : Nat} (b : Block w) : BitVec 4 := if b.busy then 0#4 else b.err.code

/-- One bit as a bit vector. -/
def bit (v : Bool) : BitVec 1 := if v then 1#1 else 0#1

/-- What a result register's port shows: its value, or while BUSY an unspecified one (R105). Log 12. -/
def Block.shown {w k : Nat} (b : Block w) (port : BusyPort) (v : BitVec k) : BitVec k :=
  match b.building with
  | none => v
  | some left => Config.freeBits k (.busy b.draws left port)

/-- `STATUS.ROOT_LEAF` as the port shows it (R17, R105). -/
def Block.rootLeafField {w : Nat} (b : Block w) : BitVec 1 := b.shown .rootLeaf (bit b.rootLeaf)

/-- The 16-bit STATUS word: reserved 15:8, ERR 7:4, reserved 3, ROOT_LEAF 2, STATE 1:0 (R15, R27). -/
def Block.statusWord {w : Nat} (b : Block w) : BitVec 16 :=
  0#8 ++ b.errField ++ 0#1 ++ b.rootLeafField ++ b.stateField

/-- The `error` output: 1 exactly when STATUS.STATE is ERROR (R28). -/
def Block.errorOut {w : Nat} (b : Block w) : Bool := b.stateField == Mode.error.code

/-- The `cmd_ready` output in a cycle with this `rst`: no reset, and no BUILD in progress (R104). -/
def Block.cmdReady {w : Nat} (rst : Bool) (b : Block w) : Bool := !rst && !b.busy

/-- `bitlen(v)`: the number of binary digits of `v` without leading zeros (R11). -/
def bitlen (v : Nat) : Nat := if v = 0 then 0 else Nat.log2 v + 1

/-- `ceil_div(a, b)` (R11). -/
def ceilDiv (a b : Nat) : Nat := (a + b - 1) / b

/-- The least number of whole bytes that holds a frequency, at least 1 (R69). -/
def fieldBytes (m : Nat) : Nat := max 1 (ceilDiv (bitlen m) 8)

end Sys2Proof.Machine
end

