-- ==== Sys2Proof/Machine/Build.lean ====
section
/-! DEFINITION. The build family: BUILD (R56), step by step as R57 to R70 give it. -/

namespace Sys2Proof.Machine

/-- The symbols with nonzero frequency, in ascending order: `S` of R56 (R58). -/
def presentSyms {w : Nat} (table : Vector (BitVec w) 256) : List Sym :=
  allSyms.filter (fun s => tableAt table s ≠ 0#w)

/-- `T`: the exact sum of every entry (R57). -/
def tableSum {w : Nat} (table : Vector (BitVec w) 256) : Nat :=
  (allSyms.map (fun s => (tableAt table s).toNat)).sum

/-- The seed order `s ≺ t` (R12). -/
def seedBefore {w : Nat} (table : Vector (BitVec w) 256) (s t : Sym) : Bool :=
  decide ((tableAt table t).toNat < (tableAt table s).toNat) ||
    (tableAt table s == tableAt table t && decide (s.toNat < t.toNat))

/-- Place a symbol in a list sorted by the seed order (R58). -/
def seedInsert {w : Nat} (table : Vector (BitVec w) 256) (s : Sym) : List Sym → List Sym
  | [] => [s]
  | t :: rest => if seedBefore table s t then s :: t :: rest else t :: seedInsert table s rest

/-- `L`: the present symbols sorted by the seed order (R56, R58). -/
def seedList {w : Nat} (table : Vector (BitVec w) 256) : List Sym :=
  (presentSyms table).foldr (seedInsert table) []

/-- The leaf record of a symbol (R59). -/
def leafNode {w : Nat} (table : Vector (BitVec w) 256) (s : Sym) : Node w :=
  ⟨.leaf, s, tableAt table s, nilIdx, nilIdx⟩

/-- The build in the making: the records written so far, and the working sequence (R22, R61). -/
structure Forest (w : Nat) where
  nodes : List (Node w)
  work : List Idx
  deriving DecidableEq, Repr

/-- `NEXT`: the index the next internal node takes is the number of records written so far (R23, R64). -/
def allocIdx {w : Nat} (nodes : List (Node w)) : Idx := BitVec.ofNat 9 nodes.length

/-- The leaves in seed order, and the working sequence `[0, 1, ..., n−1]` (R59, R61). -/
def seedForest {w : Nat} (table : Vector (BitVec w) 256) : Forest w :=
  let leaves := (seedList table).map (leafNode table)
  ⟨leaves, (List.range leaves.length).map (BitVec.ofNat 9)⟩

/-- The merged node of `a`, removed first, and `b`: `a` is the left child (R63), and the frequency is the
exact sum (R64). -/
def mergedNode {w : Nat} (draw : Nat) (nodes : List (Node w)) (a b : Idx) : Node w :=
  ⟨.internal, 0x00#8, BitVec.ofNat w (freqOf draw nodes a + freqOf draw nodes b), a, b⟩

/-- `p`: the least position whose element has a frequency below `f`, or the length if there is none (R65). -/
def insertPos {w : Nat} (draw : Nat) (nodes : List (Node w)) (work : List Idx) (f : Nat) : Nat :=
  work.findIdx (fun j => freqOf draw nodes j < f)

/-- `insert(WORK, p, v)`: `v` becomes element `p`, and the elements from `p` on move back by one (R11). -/
def insertAt (work : List Idx) (p : Nat) (v : Idx) : List Idx := work.take p ++ v :: work.drop p

/-- One merge step: pop `a`, pop `b`, write the merged node, and insert it (R62 to R65). -/
def mergeStep {w : Nat} (draw : Nat) (F : Forest w) : Forest w :=
  match F.work.reverse with
  | a :: b :: front =>
    let work := front.reverse
    let f := freqOf draw F.nodes a + freqOf draw F.nodes b
    ⟨F.nodes ++ [mergedNode draw F.nodes a b],
      insertAt work (insertPos draw F.nodes work f) (allocIdx F.nodes)⟩
  | _ => F

/-- Merge while more than one element is left, at most `fuel` times (R62, R66). -/
def mergeLoop {w : Nat} (draw : Nat) : Nat → Forest w → Forest w
  | 0, F => F
  | fuel + 1, F => if 1 < F.work.length then mergeLoop draw fuel (mergeStep draw F) else F

/-- The finished build of a table: every step removes one element, so as many steps as leaves suffice
(R66). -/
def builtForest {w : Nat} (draw : Nat) (table : Vector (BitVec w) 256) : Forest w :=
  let F := seedForest table
  mergeLoop draw F.work.length F

/-- `ROOT <- WORK[0]` (R66). -/
def rootOf {w : Nat} (F : Forest w) : Idx :=
  match F.work with
  | r :: _ => r
  | [] => nilIdx

/-- A successful BUILD writes the arena, WORK, the result registers and ROOT_LEAF, and the state becomes BUILT
(R56, R66 to R70). NODECNT takes what NEXT holds at the end of the build; from then on NEXT is unspecified, so
it holds a free value (R23, log 6). `n` is the number of leaves, and `F` the finished build. -/
def setTree {w : Nat} (n : Nat) (F : Forest w) (root : Idx) (total maxfreq : BitVec w) (b : Block w) :
    Block w :=
  { b with
    arena := F.nodes
    work := F.work
    nextIdx := Config.freeBits 9 (.allocNextBuilt b.draws)
    root := root
    nodecnt := allocIdx F.nodes
    leafcnt := BitVec.ofNat 9 n
    total := total
    maxfreq := maxfreq
    fwbytes := BitVec.ofNat 8 (fieldBytes maxfreq.toNat)
    rootLeaf := n == 1
    mode := .built }

/-- What a successful BUILD of a table with at least one leaf writes (R56): TOTAL is ROOT's frequency, and
MAXFREQ is node 0's (R68). -/
def buildWrites {w : Nat} (b : Block w) : Block w :=
  let F := builtForest b.draws b.freq
  let total := (nodeIn b.draws F.nodes (rootOf F)).freq
  let maxfreq := (nodeIn b.draws F.nodes 0#9).freq
  respondOk (setTree (presentSyms b.freq).length F (rootOf F) total maxfreq b)

/-- BUILD's own pseudocode, after the state check: the two input checks, then the build (R56, R57). -/
def buildBody {w : Nat} (b : Block w) : Block w :=
  if presentSyms b.freq = [] then raiseError .emptyTable b
  else if 2 ^ w - 1 < tableSum b.freq then raiseError .freqOverflow b
  else buildWrites b

/-- BUILD (R56), as the one atomic step of the transaction level (R105, log 3). -/
def buildBlock {w : Nat} (b : Block w) : Block w :=
  gate (legality .build b.mode) b (buildBody b)

/-- BUILD (R56). -/
def execBuild (s : State) : Host.Outcome State Fault Refusal :=
  .next (s.withBlock (buildBlock s.blk))

end Sys2Proof.Machine
end

