-- ==== Sys2Proof/Machine/Control.lean ====
section
/-! DEFINITION. The control family: CLEAR (R81), the one command that is legal in every state and the one
command that leaves ERROR (R93). -/

namespace Sys2Proof.Machine

/-- CLEAR (R81). -/
def clearBlock {w : Nat} (b : Block w) : Block w := gate (legality .clear b.mode) b (emptied b)

/-- CLEAR (R81). -/
def execClear (s : State) : Host.Outcome State Fault Refusal :=
  .next (s.withBlock (clearBlock s.blk))

end Sys2Proof.Machine
end

