-- ==== Sys2Proof/Machine/Load.lean ====
section
/-! DEFINITION. The load family: SET_FREQ (R53) and LOAD_PAIR (R54). -/

namespace Sys2Proof.Machine

/-- SET_FREQ's own pseudocode, after the state check (R53). -/
def setFreqBody {w : Nat} (sym : Sym) (b : Block w) : Block w :=
  respondOk (writeFreq sym b.din b)

/-- SET_FREQ sym (R53). -/
def setFreqBlock {w : Nat} (sym : Sym) (b : Block w) : Block w :=
  gate (legality (.setFreq sym) b.mode) b (setFreqBody sym b)

/-- SET_FREQ sym (R53). -/
def execSetFreq (sym : Sym) (s : State) : Host.Outcome State Fault Refusal :=
  .next (s.withBlock (setFreqBlock sym s.blk))

/-- LOAD_PAIR's own pseudocode, after the state check: the zero check, then the duplicate check (R54, R91). -/
def loadPairBody {w : Nat} (sym : Sym) (b : Block w) : Block w :=
  if b.din = 0#w then raiseError .zeroFreq b
  else if b.freqAt sym ≠ 0#w then raiseError .dupSymbol b
  else respondOk (writeFreq sym b.din b)

/-- LOAD_PAIR sym (R54). -/
def loadPairBlock {w : Nat} (sym : Sym) (b : Block w) : Block w :=
  gate (legality (.loadPair sym) b.mode) b (loadPairBody sym b)

/-- LOAD_PAIR sym (R54). -/
def execLoadPair (sym : Sym) (s : State) : Host.Outcome State Fault Refusal :=
  .next (s.withBlock (loadPairBlock sym s.blk))

end Sys2Proof.Machine
end

