-- ==== Sys2Proof/Machine/ReadOut.lean ====
section
/-! DEFINITION. The read-out family: READ_NODE (R75), READ_LEAF (R76), READ_FREQ (R77). -/

namespace Sys2Proof.Machine

/-- READ_NODE's own pseudocode, after the state check (R75). -/
def readNodeBody {w : Nat} (idx : Idx) (b : Block w) : Block w :=
  if b.nodecnt.toNat ≤ idx.toNat then raiseError .badIndex b
  else
    let n := b.nodeAt idx
    respondOk (setReadOut n.tag n.sym n.freq n.left n.right idx b)

/-- READ_NODE idx (R75). -/
def readNodeBlock {w : Nat} (idx : Idx) (b : Block w) : Block w :=
  gate (legality (.readNode idx) b.mode) b (readNodeBody idx b)

/-- READ_NODE idx (R75). -/
def execReadNode (idx : Idx) (s : State) : Host.Outcome State Fault Refusal :=
  .next (s.withBlock (readNodeBlock idx s.blk))

/-- READ_LEAF's own pseudocode, after the state check: leaf `k` is arena node `k` (R60, R76). -/
def readLeafBody {w : Nat} (k : Idx) (b : Block w) : Block w :=
  if b.leafcnt.toNat ≤ k.toNat then raiseError .badIndex b
  else
    let n := b.nodeAt k
    respondOk (setReadOut n.tag n.sym n.freq nilIdx nilIdx k b)

/-- READ_LEAF k (R76). -/
def readLeafBlock {w : Nat} (k : Idx) (b : Block w) : Block w :=
  gate (legality (.readLeaf k) b.mode) b (readLeafBody k b)

/-- READ_LEAF k (R76). -/
def execReadLeaf (k : Idx) (s : State) : Host.Outcome State Fault Refusal :=
  .next (s.withBlock (readLeafBlock k s.blk))

/-- READ_FREQ's own pseudocode, after the state check (R77). -/
def readFreqBody {w : Nat} (sym : Sym) (b : Block w) : Block w :=
  respondOk (setSymFreq sym (b.freqAt sym) b)

/-- READ_FREQ sym (R77). -/
def readFreqBlock {w : Nat} (sym : Sym) (b : Block w) : Block w :=
  gate (legality (.readFreq sym) b.mode) b (readFreqBody sym b)

/-- READ_FREQ sym (R77). -/
def execReadFreq (sym : Sym) (s : State) : Host.Outcome State Fault Refusal :=
  .next (s.withBlock (readFreqBlock sym s.blk))

end Sys2Proof.Machine
end

