-- ==== Sys2Proof/Machine/Dispatch.lean ====
section
/-! DEFINITION. The dispatch: one arm per instruction, each one call of its meaning. -/

namespace Sys2Proof.Machine

/-- The meaning of an accepted command (R9, R46). -/
def exec (i : Instr) (s : State) : Host.Outcome State Fault Refusal :=
  match i with
  | .clear => Sys2Proof.Machine.execClear s
  | .setFreq sym => Sys2Proof.Machine.execSetFreq sym s
  | .loadPair sym => Sys2Proof.Machine.execLoadPair sym s
  | .build => Sys2Proof.Machine.execBuild s
  | .readNode idx => Sys2Proof.Machine.execReadNode idx s
  | .readLeaf k => Sys2Proof.Machine.execReadLeaf k s
  | .readFreq sym => Sys2Proof.Machine.execReadFreq sym s

end Sys2Proof.Machine
end

