-- ==== Sys2Proof/Machine/Accept.lean ====
section
/-! DEFINITION. Taking the host's next input (R42, R99, R103): the transaction level, where every accepted
command is one step (R9). -/

namespace Sys2Proof.Machine

/-- The word of the sampled command is decoded and executed; an illegal word raises its error (R50, R84). -/
def runSampled (s : State) : Host.Outcome State Fault Refusal :=
  match decode s.blk.cmd with
  | .instr i => exec i s
  | .illegal _ => .next (s.withBlock (illegalWord s.blk))

/-- A command is accepted: the port is sampled, and the command runs (R103). -/
def accept (s : State) (p : PortIn s.cfg.freqBits) : Host.Outcome State Fault Refusal :=
  runSampled (s.withBlock (sample p s.blk))

/-- The BUILD in progress completes (R105): its effect is that of the atomic command. -/
def completeBuild (s : State) : Host.Outcome State Fault Refusal :=
  exec .build (s.withBlock (withBuilding none s.blk))

/-- Take the first input the host drives: `rst` wins (R99); while BUSY no command is accepted, and the step
is the completion of the BUILD (R38, R104, log 5); else a command offered is accepted (R103). -/
def takeInput (s : State) (p : PortIn s.cfg.freqBits) (rest : List (PortIn s.cfg.freqBits)) :
    Host.Outcome State Fault Refusal :=
  if p.rst then .next (s.withBlock (withHost rest (resetBlock s.blk)))
  else if s.blk.busy then completeBuild s
  else if p.cmdValid then accept (s.withBlock (withHost rest s.blk)) p
  else .next (s.withBlock (withHost rest s.blk))

/-- One transaction (R9). Where the host drives nothing, only a BUILD in progress changes the state. -/
def transact (s : State) : Host.Outcome State Fault Refusal :=
  match s.blk.host with
  | p :: rest => takeInput s p rest
  | [] => if s.blk.busy then completeBuild s else .next s

/-- The port sample that offers this command word, with the last sampled value on `din`. -/
def offer {w : Nat} (word : CmdWord) (din : BitVec w) : PortIn w := ⟨false, true, word, din⟩

/-- The state in which the very next step accepts this word: it is what the host drives first, and no BUILD
is in progress (log 2). -/
def placeWord (s : State) (word : CmdWord) : State :=
  s.withBlock (withBuilding none (withHost (offer word s.blk.din :: s.blk.host) s.blk))

end Sys2Proof.Machine
end

