-- ==== Sys2Proof/Machine/Step.lean ====
section
/-! DEFINITION. One step of the machine (R9), and how a command word comes to be its next command. -/

namespace Sys2Proof.Machine

/-- One step: one transaction of the command port (R9, R103). -/
def step (s : State) : Host.Outcome State Fault Refusal := transact s

/-- The state in which the next step runs the command of an opcode-table word. -/
def State.withFetchWord (s : State) (nbits w : Nat) : State := placeWord s (tableWord nbits w)

end Sys2Proof.Machine
end

