-- ==== Sys2Proof/Machine/Assembler.lean ====
section
/-! DEFINITION. The textual form of commands and the listing line (R51, R52). -/

namespace Sys2Proof.Machine

/-- The instruction of a line whose operands are in range (R46, R51). -/
def lineInstr : AsmLine → Instr
  | .clear => .clear
  | .setFreq sym _ => .setFreq (BitVec.ofNat 8 sym.value)
  | .loadPair sym _ => .loadPair (BitVec.ofNat 8 sym.value)
  | .build => .build
  | .readNode idx => .readNode (BitVec.ofNat 9 idx)
  | .readLeaf idx => .readLeaf (BitVec.ofNat 9 idx)
  | .readFreq sym => .readFreq (BitVec.ofNat 8 sym.value)

/-- The value a line drives on `din`; none for a command that ignores it (R44, R51). -/
def lineDin : AsmLine → Option Nat
  | .setFreq _ freq | .loadPair _ freq => some freq
  | .clear | .build | .readNode _ | .readLeaf _ | .readFreq _ => none

/-- A line becomes exactly one command word, and a value for `din` where the command reads it; an operand
outside its range is refused (R51, R52). -/
def assemble (c : Config) (l : AsmLine) : Option (CmdWord × Option (BitVec c.freqBits)) :=
  if l.wf c then some (encode (lineInstr l), (lineDin l).map (BitVec.ofNat c.freqBits)) else none

/-- A hexadecimal digit's value. -/
def hexValue (c : Char) : Option Nat :=
  if '0' ≤ c ∧ c ≤ '9' then some (c.toNat - '0'.toNat)
  else if 'a' ≤ c ∧ c ≤ 'f' then some (c.toNat - 'a'.toNat + 10)
  else if 'A' ≤ c ∧ c ≤ 'F' then some (c.toNat - 'A'.toNat + 10)
  else none

/-- A nonempty digit string in base `base`. -/
def digitsValue (base : Nat) : Nat → List Char → Option Nat
  | acc, [] => some acc
  | acc, c :: rest =>
    match hexValue c with
    | some d => if d < base then digitsValue base (acc * base + d) rest else none
    | none => none

/-- A number, decimal or `0x..` (R51). -/
def numberValue : List Char → Option Nat
  | '0' :: 'x' :: d :: ds => digitsValue 16 0 (d :: ds)
  | d :: ds => digitsValue 10 0 (d :: ds)
  | [] => none

/-- The characters after any blanks. -/
def skipBlanks (text : List Char) : List Char := text.dropWhile (· == ' ')

/-- A number at the front of the text, and what follows it. -/
def parseNumber (text : List Char) : Option (Nat × List Char) :=
  (numberValue (text.takeWhile Char.isAlphanum)).map (·, text.dropWhile Char.isAlphanum)

/-- A symbol operand at the front of the text: a number, or a character literal (R51). -/
def parseSym : List Char → Option (SymOperand × List Char)
  | '\'' :: c :: '\'' :: rest => some (.char c, rest)
  | text => (parseNumber text).map (fun r => (.num r.1, r.2))

/-- Nothing but blanks is left. -/
def atEnd (text : List Char) : Bool := skipBlanks text == []

/-- A symbol operand and nothing after it. -/
def parseSymOnly (mk : SymOperand → AsmLine) (text : List Char) : Option AsmLine :=
  match parseSym (skipBlanks text) with
  | some (sym, rest) => if atEnd rest then some (mk sym) else none
  | none => none

/-- An index operand and nothing after it. -/
def parseIdxOnly (mk : Nat → AsmLine) (text : List Char) : Option AsmLine :=
  match parseNumber (skipBlanks text) with
  | some (idx, rest) => if atEnd rest then some (mk idx) else none
  | none => none

/-- A symbol operand, a comma, a frequency, and nothing after it. -/
def parseSymFreq (mk : SymOperand → Nat → AsmLine) (text : List Char) : Option AsmLine :=
  match parseSym (skipBlanks text) with
  | some (sym, rest) =>
    match skipBlanks rest with
    | ',' :: rest =>
      match parseNumber (skipBlanks rest) with
      | some (freq, rest) => if atEnd rest then some (mk sym freq) else none
      | none => none
    | _ => none
  | none => none

/-- A line of the textual form (R51). Log 19. -/
def parseLine (line : String) : Option AsmLine :=
  let text := skipBlanks line.toList
  let rest := text.dropWhile (fun c => c.isAlphanum || c == '_')
  let name := String.ofList (text.takeWhile (fun c => c.isAlphanum || c == '_'))
  if name = "CLEAR" then (if atEnd rest then some .clear else none)
  else if name = "SET_FREQ" then parseSymFreq .setFreq rest
  else if name = "LOAD_PAIR" then parseSymFreq .loadPair rest
  else if name = "BUILD" then (if atEnd rest then some .build else none)
  else if name = "READ_NODE" then parseIdxOnly .readNode rest
  else if name = "READ_LEAF" then parseIdxOnly .readLeaf rest
  else if name = "READ_FREQ" then parseSymOnly .readFreq rest
  else none

/-- The four hexadecimal digits of a command word. -/
def hexWord (w : CmdWord) : String :=
  String.ofList ([w.toNat / 4096 % 16, w.toNat / 256 % 16, w.toNat / 16 % 16, w.toNat % 16].map
    (fun d => if d < 10 then Char.ofNat ('0'.toNat + d) else Char.ofNat ('A'.toNat + (d - 10))))

/-- The listing line of a line of text: the word in hex, the `din` value or `-`, and the text after `;`
(R51). -/
def listing (c : Config) (line : String) : Option String :=
  match parseLine line with
  | some l =>
    match assemble c l with
    | some (word, some din) => some ("0x" ++ hexWord word ++ " " ++ toString din.toNat ++ " ; " ++ line)
    | some (word, none) => some ("0x" ++ hexWord word ++ " - ; " ++ line)
    | none => none
  | none => none

end Sys2Proof.Machine
end

