-- ==== Sys2Proof/Machine/Ports.lean ====
section
/-! DEFINITION. The output ports of R42: each carries its register's current value at all times, and while a
BUILD is in progress the result registers' ports carry unspecified values (R105). -/

namespace Sys2Proof.Machine

/-- The output ports of R42. -/
structure PortOut (w : Nat) where
  cmdReady : Bool
  error : Bool
  status : BitVec 16
  leafcnt : Idx
  nodecnt : Idx
  root : Idx
  total : BitVec w
  maxfreq : BitVec w
  fwbytes : BitVec 8
  resp : BitVec 4
  errcmd : CmdWord
  rTag : BitVec 1
  rSym : Sym
  rFreq : BitVec w
  rLeft : Idx
  rRight : Idx
  rIdx : Idx
  deriving DecidableEq, Repr

/-- The output ports in a cycle in which `rst` has this value (R42, R104, R105). -/
def Block.ports {w : Nat} (rst : Bool) (b : Block w) : PortOut w where
  cmdReady := b.cmdReady rst
  error := b.errorOut
  status := b.statusWord
  leafcnt := b.shown .leafcnt b.leafcnt
  nodecnt := b.shown .nodecnt b.nodecnt
  root := b.shown .root b.root
  total := b.shown .total b.total
  maxfreq := b.shown .maxfreq b.maxfreq
  fwbytes := b.shown .fwbytes b.fwbytes
  resp := b.shown .resp b.resp.code
  errcmd := b.errcmd
  rTag := b.rTag.bit
  rSym := b.rSym
  rFreq := b.rFreq
  rLeft := b.rLeft
  rRight := b.rRight
  rIdx := b.rIdx

end Sys2Proof.Machine
end

