-- ==== Sys2Proof/Machine/Clock.lean ====
section
/-! DEFINITION. The clock level: one rising edge of `clk` (R99, R103 to R106). It runs on the same State as
the transaction level, and uses the same meanings; only a BUILD takes more than one edge. -/

namespace Sys2Proof.Machine

/-- BUILD_LATENCY, a function of the table that is at least 1 (R8, R110). -/
def buildLatency {w : Nat} (table : Vector (BitVec w) 256) : Nat :=
  Config.latencyLessOne (table.toList.map BitVec.toNat) + 1

/-- A BUILD accepted outside ERROR starts: BUSY until BUILD_LATENCY edges later (R105). In ERROR every word but
CLEAR is ignored, a BUILD too, so there it starts nothing (R92, R93, log 11). -/
def startsBuild {w : Nat} (b : Block w) : Bool :=
  decode b.cmd == .instr .build && b.mode != .error

/-- The edge that accepts a BUILD (R105). The free values its ports show while BUSY are drawn anew. -/
def beginBuild {w : Nat} (b : Block w) : Block w :=
  { b with building := some (buildLatency b.freq), draws := b.draws + 1 }

/-- The edge that accepts the sampled command: a BUILD starts, and every other command completes (R105, R106). -/
def edgeAccepts (s : State) : Host.Outcome State Fault Refusal :=
  if startsBuild s.blk then .next (s.withBlock (beginBuild s.blk)) else runSampled s

/-- An edge while a BUILD is in progress, `left` edges before it completes: the last of them completes it
(R105). No command is accepted (R103, R104). -/
def edgeBusy (left : Nat) (s : State) : Host.Outcome State Fault Refusal :=
  if left ≤ 1 then completeBuild s
  else .next (s.withBlock (withBuilding (some (left - 1)) s.blk))

/-- One rising edge at which the host drives `p` (R99, R103). -/
def edgeWith (s : State) (p : PortIn s.cfg.freqBits) : Host.Outcome State Fault Refusal :=
  if p.rst then .next (s.withBlock (resetBlock s.blk))
  else match s.blk.building with
    | some left => edgeBusy left s
    | none => if p.cmdValid then edgeAccepts (s.withBlock (sample p s.blk)) else .next s

/-- One rising edge of the clock: the first sample of the host's queue is what the input ports carry. Where
the queue is empty, `rst` and `cmd_valid` are 0. -/
def clockEdge (s : State) : Host.Outcome State Fault Refusal :=
  match s.blk.host with
  | p :: rest => edgeWith (s.withBlock (withHost rest s.blk)) p
  | [] => edgeWith s ⟨false, false, 0x0000#16, 0⟩

/-- The block at clock level, as a machine of its own. -/
def clockCore : Host.Core where
  State := State
  Fault := Fault
  Refusal := Refusal
  step := clockEdge
  reset := State.reset

end Sys2Proof.Machine
end

