-- ==== Sys2Proof/Machine/Session.lean ====
section
/-! DEFINITION. A session and its observation (R111), and the sequence of loads of R55. -/

namespace Sys2Proof.Machine

/-- A command as the host sends it: the word, and the value on `din`. -/
abbrev Command (w : Nat) := CmdWord × BitVec w

/-- The block with these commands offered next, one after the other (R107). -/
def Block.offering {w : Nat} (cmds : List (Command w)) (b : Block w) : Block w :=
  withHost (cmds.map (fun c => offer c.1 c.2)) b

/-- A session: from a block that has just been reset or cleared, the commands in their order (R111). -/
def session (s : State) (cmds : List (Command s.cfg.freqBits)) : Host.Outcome State Fault Refusal :=
  Sys2Proof.core.run cmds.length (s.withBlock (s.blk.offering cmds))

/-- SET_FREQ commands for these pairs (R53). -/
def setFreqCommands {w : Nat} (pairs : List (Sym × BitVec w)) : List (Command w) :=
  pairs.map (fun p => (encode (.setFreq p.1), p.2))

/-- LOAD_PAIR commands for these pairs (R54). -/
def loadPairCommands {w : Nat} (pairs : List (Sym × BitVec w)) : List (Command w) :=
  pairs.map (fun p => (encode (.loadPair p.1), p.2))

/-- `FREQ[sym]` as READ_FREQ returns it; none where the command does not answer OK (R77, R111). -/
def observeFreq {w : Nat} (b : Block w) (sym : Sym) : Option (BitVec w) :=
  let b' := readFreqBlock sym b
  if b'.resp = .ok then some b'.rFreq else none

/-- `NODE[idx]` as READ_NODE returns it; none where the command does not answer OK (R75, R111). -/
def observeNode {w : Nat} (b : Block w) (idx : Idx) : Option (Node w) :=
  let b' := readNodeBlock idx b
  if b'.resp = .ok then some ⟨b'.rTag, b'.rSym, b'.rFreq, b'.rLeft, b'.rRight⟩ else none

/-- What a session shows at its end (R111). -/
structure Observation (w : Nat) where
  ports : PortOut w
  table : List (Option (BitVec w))
  nodes : List (Option (Node w))
  deriving DecidableEq, Repr

/-- The observation of R111: every register, the table through READ_FREQ, the arena through READ_NODE. -/
def observe {w : Nat} (b : Block w) : Observation w where
  ports := b.ports false
  table := allSyms.map (observeFreq b)
  nodes := (List.range 512).map (fun i => observeNode b (BitVec.ofNat 9 i))

end Sys2Proof.Machine
end

