-- ==== Sys2Proof/Machine/Tree.lean ====
section
/-! DEFINITION. What the neighbour blocks read from the tree: the walk and the path labels (R78, R79), the
header pairs in leaf-list order (R60, R79), and the counts that R71 and R74 speak of. -/

namespace Sys2Proof.Machine

/-- The decoder's walk from node `i` along the bits: 0 to the left child, 1 to the right; none where the walk
would leave a leaf (R79). -/
def walkFrom {w : Nat} (b : Block w) (i : Idx) : List Bool → Option Idx
  | [] => some i
  | bit :: bits =>
    match (b.nodeAt i).tag with
    | .leaf => none
    | .internal => walkFrom b (if bit then (b.nodeAt i).right else (b.nodeAt i).left) bits

/-- The walk from ROOT (R79). -/
def walk {w : Nat} (b : Block w) (bits : List Bool) : Option Idx := walkFrom b b.root bits

/-- `bits` is the path label `code(i)` of node `i` (R78). -/
def IsPathLabel {w : Nat} (b : Block w) (i : Idx) (bits : List Bool) : Prop := walk b bits = some i

/-- How often node `i` is a child of an internal node (R71). -/
def childCount {w : Nat} (nodes : List (Node w)) (i : Idx) : Nat :=
  (nodes.map (fun n => match n.tag with
    | .leaf => 0
    | .internal => (if n.left = i then 1 else 0) + (if n.right = i then 1 else 0))).sum

/-- The leaf list as READ_LEAF 0, 1, ... LEAFCNT−1 return it: the header's pairs (R60, R79). -/
def leafPairs {w : Nat} (b : Block w) : List (Sym × BitVec w) :=
  (List.range b.leafcnt.toNat).map (fun k =>
    let b' := readLeafBlock (BitVec.ofNat 9 k) b
    (b'.rSym, b'.rFreq))

/-- The sum of the internal nodes' frequencies (R74). -/
def internalSum {w : Nat} (nodes : List (Node w)) : Nat :=
  (nodes.map (fun n => match n.tag with
    | .leaf => 0
    | .internal => n.freq.toNat)).sum

/-- The weighted path length when leaf `k` has depth `depth k` (R74). -/
def weightedLength {w : Nat} (b : Block w) (depth : Nat → Nat) : Nat :=
  ((List.range b.leafcnt.toNat).map (fun k =>
    (b.nodeAt (BitVec.ofNat 9 k)).freq.toNat * depth k)).sum

/-- Any binary tree whose leaves carry symbols, and whose internal nodes have exactly two children: what R74
compares the built tree with. -/
inductive CodeTree where
  | leaf (sym : Sym)
  | node (left right : CodeTree)
  deriving DecidableEq, Repr

/-- The symbols of a tree's leaves, from left to right. -/
def CodeTree.syms : CodeTree → List Sym
  | .leaf s => [s]
  | .node l r => l.syms ++ r.syms

/-- The weighted path length of a tree whose root stands at this depth (R74). -/
def CodeTree.costAt {w : Nat} (table : Vector (BitVec w) 256) : Nat → CodeTree → Nat
  | depth, .leaf s => (tableAt table s).toNat * depth
  | depth, .node l r => l.costAt table (depth + 1) + r.costAt table (depth + 1)

end Sys2Proof.Machine
end

