-- ==== Sys2Proof/Safety.lean ====
section
/-! DEFINITION. What a safe state is: the conditions that R18, R19, R25, R26 and R71 put on the registers, in
the terms the claims use. -/

namespace Sys2Proof.Machine

/-- The registers show no tree: the IDLE column of R19. -/
structure Block.NoTree {w : Nat} (b : Block w) : Prop where
  leafcnt : b.leafcnt = 0#9
  nodecnt : b.nodecnt = 0#9
  root : b.root = nilIdx
  total : b.total = 0#w
  maxfreq : b.maxfreq = 0#w
  fwbytes : b.fwbytes = 0#8
  rootLeaf : b.rootLeaf = false
  arena : b.arena = []

/-- `n`: how many symbols of the table have nonzero frequency (R56). -/
def Block.leafTotal {w : Nat} (b : Block w) : Nat := (presentSyms b.freq).length

/-- The registers show the counts and the statistics of the table's tree: the BUILT column of R19. -/
structure Block.ResultsValid {w : Nat} (b : Block w) : Prop where
  nonempty : 1 ≤ b.leafTotal
  written : b.arena.length = 2 * b.leafTotal - 1
  leafcnt : b.leafcnt.toNat = b.leafTotal
  nodecnt : b.nodecnt.toNat = 2 * b.leafTotal - 1
  root : b.root.toNat = 2 * b.leafTotal - 2
  total : b.total.toNat = tableSum b.freq
  maxfreqBound : ∀ s : Sym, (b.freqAt s).toNat ≤ b.maxfreq.toNat
  maxfreqHeld : ∃ s : Sym, b.freqAt s = b.maxfreq
  fwbytes : b.fwbytes.toNat = fieldBytes b.maxfreq.toNat
  rootLeaf : b.rootLeaf = true ↔ b.leafTotal = 1
  work : b.work = [b.root]

/-- The leaf records: R71 item 2, in the order of R58 and R60. -/
structure Block.LeavesValid {w : Nat} (b : Block w) : Prop where
  record : ∀ i : Idx, i.toNat < b.leafTotal →
    (b.nodeAt i).tag = .leaf ∧ (b.nodeAt i).freq = b.freqAt (b.nodeAt i).sym ∧
      1 ≤ (b.nodeAt i).freq.toNat ∧ (b.nodeAt i).left = nilIdx ∧ (b.nodeAt i).right = nilIdx
  ordered : ∀ i j : Idx, i.toNat < j.toNat → j.toNat < b.leafTotal →
    seedBefore b.freq (b.nodeAt i).sym (b.nodeAt j).sym = true
  complete : ∀ s : Sym, b.freqAt s ≠ 0#w → ∃ i : Idx, i.toNat < b.leafTotal ∧ (b.nodeAt i).sym = s

/-- The internal records: R71 items 3, 4, 5 and 6. -/
structure Block.InternalsValid {w : Nat} (b : Block w) : Prop where
  record : ∀ i : Idx, b.leafTotal ≤ i.toNat → i.toNat < 2 * b.leafTotal - 1 →
    (b.nodeAt i).tag = .internal ∧ (b.nodeAt i).sym = 0x00#8 ∧
      (b.nodeAt i).left.toNat < i.toNat ∧ (b.nodeAt i).right.toNat < i.toNat ∧
      (b.nodeAt i).left ≠ (b.nodeAt i).right
  sum : ∀ i : Idx, b.leafTotal ≤ i.toNat → i.toNat < 2 * b.leafTotal - 1 →
    (b.nodeAt i).freq.toNat =
      (b.nodeAt (b.nodeAt i).left).freq.toNat + (b.nodeAt (b.nodeAt i).right).freq.toNat
  childOrder : ∀ i : Idx, b.leafTotal ≤ i.toNat → i.toNat < 2 * b.leafTotal - 1 →
    (b.nodeAt (b.nodeAt i).left).freq.toNat ≤ (b.nodeAt (b.nodeAt i).right).freq.toNat
  oneParent : ∀ i : Idx, i.toNat < 2 * b.leafTotal - 1 →
    childCount b.arena i = if i = b.root then 0 else 1
  monotone : ∀ i j : Idx, b.leafTotal ≤ i.toNat → i.toNat < j.toNat → j.toNat < 2 * b.leafTotal - 1 →
    (b.nodeAt i).freq.toNat ≤ (b.nodeAt j).freq.toNat

/-- The registers and the arena hold a valid tree of the table (R19, R71). -/
structure Block.TreeValid {w : Nat} (b : Block w) : Prop where
  results : b.ResultsValid
  leaves : b.LeavesValid
  internals : b.InternalsValid

/-- A safe block: what every step keeps. -/
structure Block.Inv {w : Nat} (b : Block w) : Prop where
  /-- RESP repeats the error code, and is OK while there is none (R25, R82, R92). -/
  resp : b.resp = b.err
  /-- ERR is 0 exactly while STATE is not ERROR (R18). -/
  err : b.err = .ok ↔ b.mode ≠ .error
  /-- ERRCMD is 0x0000 exactly while STATE is not ERROR (R26). -/
  errcmd : b.errcmd = 0x0000#16 ↔ b.mode ≠ .error
  /-- In IDLE no tree is valid (R16, R19). -/
  idle : b.mode = .idle → b.NoTree
  /-- In IDLE no record has been read since CLEAR or reset (R24, R85). -/
  idleReadOut : b.mode = .idle →
    b.rTag = .leaf ∧ b.rLeft = nilIdx ∧ b.rRight = nilIdx ∧ b.rIdx = nilIdx
  /-- In BUILT the tree is valid for the table (R16, R70, R71). -/
  built : b.mode = .built → b.TreeValid
  /-- An error keeps what was there before it (R82). -/
  error : b.mode = .error → b.NoTree ∨ b.TreeValid
  /-- BUSY belongs to a BUILD, never starts in ERROR, and ends (R92, R104, R105). -/
  busy : ∀ left, b.building = some left → 1 ≤ left ∧ b.mode ≠ .error ∧ b.cmd = 0x3000#16

/-- A safe state. -/
def State.Inv (s : State) : Prop := s.blk.Inv

end Sys2Proof.Machine
end

