-- ==== Sys2Proof/Certificates/Slice0/Obligations.lean ====
section
/-! DEFINITION. The statements for the provers. A state is written `⟨c, b⟩`: a configuration, which fixes
FREQ_BITS, and a block; every statement is for every configuration. -/

open Sys2Proof Sys2Proof.Machine

/-! ## Encoding and decoding -/

/-- Encoding and decoding agree in both directions, for every instruction and every operand, and every
decoded instruction has its operands in range (R45, R46, R50). -/
def Obligations.EncodeDecodeRoundTrip : Prop :=
  (∀ i : Instr, decode (encode i) = .instr i) ∧
  (∀ (w : CmdWord) (i : Instr), decode w = .instr i → encode i = w ∧ i.wf = true)

/-- A word matches a row of the opcode map exactly when it decodes to that row's command, and no word
matches two rows (R46). -/
def Obligations.WordMatchesRowExactlyWhenDecoded : Prop :=
  ∀ w : CmdWord,
    (opcodeRows.filter (fun r => r.hits w)).length ≤ 1 ∧
    (∀ r ∈ opcodeRows, r.hits w = true ↔ ∃ i, decode w = .instr i ∧ mnemonic i = r.mnemonic)

/-- The sample words of 95_test_vectors.md 2.5, written out bit by bit from the patterns of R46. -/
def Obligations.SampleWordsDecode : Prop :=
  decode 0b0000000000000000#16 = .instr .clear ∧
  decode 0b0001000001100001#16 = .instr (.setFreq 0x61#8) ∧
  decode 0b0010000001000001#16 = .instr (.loadPair 0x41#8) ∧
  decode 0b0011000000000000#16 = .instr .build ∧
  decode 0b0100000111111111#16 = .instr (.readNode 511#9) ∧
  decode 0b0101000000000000#16 = .instr (.readLeaf 0#9) ∧
  decode 0b0110000011111111#16 = .instr (.readFreq 0xFF#8) ∧
  decode 0b0001111001100001#16 = .illegal .reservedBits ∧
  decode 0b0110000100000000#16 = .illegal .symBitEight ∧
  decode 0b0011000100000000#16 = .illegal .argNotZero ∧
  decode 0b0111000000000000#16 = .illegal .reservedOpcode

/-- The illegal words are exactly those with a reserved opcode or a nonzero reserved field (R47, R48, R49);
an accepted illegal word raises ILLEGAL_CMD and is recorded, and in ERROR it is ignored (R84, R92). -/
def Obligations.IllegalWordsAreReservedAndRaise : Prop :=
  (∀ w : CmdWord, (∃ why, decode w = .illegal why) ↔
    (7 ≤ (w.extractLsb' 12 4).toNat ∨ w.extractLsb' 9 3 ≠ 0#3 ∨
      ((w.extractLsb' 12 4 = 1#4 ∨ w.extractLsb' 12 4 = 2#4 ∨ w.extractLsb' 12 4 = 6#4) ∧
        w.extractLsb' 8 1 ≠ 0#1) ∨
      ((w.extractLsb' 12 4 = 0#4 ∨ w.extractLsb' 12 4 = 3#4) ∧ w.extractLsb' 0 9 ≠ 0#9))) ∧
  (∀ (c : Config) (b : Block c.freqBits) (why : IllegalReason), decode b.cmd = .illegal why →
    (b.mode ≠ .error → runSampled ⟨c, b⟩ = .next ⟨c,
      { b with mode := .error, err := .illegalCmd, errcmd := b.cmd, resp := .illegalCmd }⟩) ∧
    (b.mode = .error → runSampled ⟨c, b⟩ = .next ⟨c, { b with resp := b.err }⟩))

/-! ## Reset -/

/-- The registers after reset hold the values of R30's column "after reset", in every configuration. -/
def Obligations.ResetRegisterValues : Prop :=
  ∀ c : Config, ∃ b : Block c.freqBits, State.resetOf c = ⟨c, b⟩ ∧
    b.statusWord = 0x0000#16 ∧ b.leafcnt = 0#9 ∧ b.nodecnt = 0#9 ∧ b.root = 0x1FF#9 ∧
    b.total = 0#_ ∧ b.maxfreq = 0#_ ∧ b.fwbytes = 0#8 ∧ b.resp = .ok ∧ b.errcmd = 0x0000#16 ∧
    b.rTag = .leaf ∧ b.rSym = 0#8 ∧ b.rFreq = 0#_ ∧ b.rLeft = 0x1FF#9 ∧ b.rRight = 0x1FF#9 ∧
    b.rIdx = 0x1FF#9 ∧ (∀ s : Sym, b.freqAt s = 0#_) ∧ b.cmdReady false = true ∧ b.errorOut = false

/-- At an edge with `rst = 1` the block is reset whatever command is offered and whether or not a BUILD is in
progress, and `cmd_ready` is 0 in that cycle (R99, R100). What the host drives after that edge is kept. -/
def Obligations.ResetEdgeWinsAndClearsAll : Prop :=
  ∀ (c : Config) (b : Block c.freqBits) (p : PortIn c.freqBits) (rest : List (PortIn c.freqBits)),
    b.host = p :: rest → p.rst = true →
    b.cmdReady true = false ∧
    ∃ t : Block c.freqBits, step ⟨c, b⟩ = .next ⟨c, t⟩ ∧ clockEdge ⟨c, b⟩ = .next ⟨c, t⟩ ∧
      t.statusWord = 0x0000#16 ∧ t.leafcnt = 0#9 ∧ t.nodecnt = 0#9 ∧ t.root = 0x1FF#9 ∧
      t.total = 0#_ ∧ t.maxfreq = 0#_ ∧ t.fwbytes = 0#8 ∧ t.resp = .ok ∧ t.errcmd = 0x0000#16 ∧
      t.rTag = .leaf ∧ t.rSym = 0#8 ∧ t.rFreq = 0#_ ∧ t.rLeft = 0x1FF#9 ∧ t.rRight = 0x1FF#9 ∧
      t.rIdx = 0x1FF#9 ∧ (∀ s : Sym, t.freqAt s = 0#_) ∧ t.building = none ∧ t.host = rest

/-! ## The error entry, its priority, and the way out -/

/-- Errors are precise: a command that raises one writes STATE, ERR, ERRCMD and RESP, and nothing else (R82). -/
def Obligations.ErrorWritesExactlyFour : Prop :=
  ∀ (c : Config) (b t : Block c.freqBits), b.mode ≠ .error → t.mode = .error →
    ((∃ i, exec i ⟨c, b⟩ = .next ⟨c, t⟩) ∨ runSampled ⟨c, b⟩ = .next ⟨c, t⟩) →
    ∃ code : ErrCode, code ≠ .ok ∧
      t = { b with mode := .error, err := code, errcmd := b.cmd, resp := code }

/-- In ERROR every accepted word other than 0x0000 is ignored: it writes RESP with ERR and changes nothing
else (R92). -/
def Obligations.ErrorIgnoresAllButClear : Prop :=
  ∀ (c : Config) (b : Block c.freqBits), b.mode = .error →
    (∀ i : Instr, i ≠ .clear → exec i ⟨c, b⟩ = .next ⟨c, { b with resp := b.err }⟩) ∧
    (b.cmd ≠ 0x0000#16 → runSampled ⟨c, b⟩ = .next ⟨c, { b with resp := b.err }⟩)

/-- ERROR is left in only two ways, CLEAR and reset, and both lead to IDLE with ERR = 0 (R93). -/
def Obligations.ErrorLeftOnlyByClearOrReset : Prop :=
  (∀ (c : Config) (b t : Block c.freqBits), b.mode = .error → step ⟨c, b⟩ = .next ⟨c, t⟩ →
    t.mode ≠ .error →
    ∃ p rest, b.host = p :: rest ∧
      (p.rst = true ∨ (p.cmdValid = true ∧ p.cmd = 0x0000#16))) ∧
  (∀ (c : Config) (b : Block c.freqBits) (p : PortIn c.freqBits) (rest : List (PortIn c.freqBits)),
    b.mode = .error → b.host = p :: rest →
    (p.rst = true ∨ (b.building = none ∧ p.cmdValid = true ∧ p.cmd = 0x0000#16)) →
    ∃ t : Block c.freqBits, step ⟨c, b⟩ = .next ⟨c, t⟩ ∧ t.mode = .idle ∧ t.err = .ok)

/-- The legality table of R85, cell by cell: where it says BAD_STATE or ignored the command does that, and
where it says executes the command never raises BAD_STATE. -/
def Obligations.LegalityTableCells : Prop :=
  ∀ (c : Config) (b : Block c.freqBits),
    (∀ i : Instr,
      ((b.mode = .built ∧ ((∃ s, i = .setFreq s) ∨ (∃ s, i = .loadPair s) ∨ i = .build)) ∨
        (b.mode = .idle ∧ ((∃ k, i = .readNode k) ∨ (∃ k, i = .readLeaf k)))) →
      exec i ⟨c, b⟩ = .next ⟨c,
        { b with mode := .error, err := .badState, errcmd := b.cmd, resp := .badState }⟩) ∧
    (∀ i : Instr, b.mode = .error → i ≠ .clear →
      exec i ⟨c, b⟩ = .next ⟨c, { b with resp := b.err }⟩) ∧
    (∀ (i : Instr) (t : Block c.freqBits),
      (i = .clear ∨
        (b.mode = .idle ∧ (∀ k, i ≠ .readNode k) ∧ (∀ k, i ≠ .readLeaf k)) ∨
        (b.mode = .built ∧ ((∃ k, i = .readNode k) ∨ (∃ k, i = .readLeaf k) ∨ (∃ s, i = .readFreq s)))) →
      exec i ⟨c, b⟩ = .next ⟨c, t⟩ → t.mode = .error → t.err ≠ .badState) ∧
    (∀ why : IllegalReason, decode b.cmd = .illegal why →
      (b.mode ≠ .error → runSampled ⟨c, b⟩ = .next ⟨c,
        { b with mode := .error, err := .illegalCmd, errcmd := b.cmd, resp := .illegalCmd }⟩) ∧
      (b.mode = .error → runSampled ⟨c, b⟩ = .next ⟨c, { b with resp := b.err }⟩))

/-! ## The commands -/

/-- SET_FREQ (R53): in IDLE it overwrites one entry and answers OK, and everything else is unchanged; in
BUILT it raises BAD_STATE; its words with `cmd[11:8]` not zero raise ILLEGAL_CMD. -/
def Obligations.SetFreqEffect : Prop :=
  (∀ (c : Config) (b : Block c.freqBits) (sym : Sym),
    (b.mode = .idle → ∃ t : Block c.freqBits, exec (.setFreq sym) ⟨c, b⟩ = .next ⟨c, t⟩ ∧
      t.freqAt sym = b.din ∧ (∀ s, s ≠ sym → t.freqAt s = b.freqAt s) ∧
      t = { b with freq := t.freq, resp := .ok }) ∧
    (b.mode = .built → exec (.setFreq sym) ⟨c, b⟩ = .next ⟨c,
      { b with mode := .error, err := .badState, errcmd := b.cmd, resp := .badState }⟩)) ∧
  (∀ w : CmdWord, w.extractLsb' 12 4 = 1#4 → w.extractLsb' 8 4 = 0#4 →
    decode w = .instr (.setFreq (w.extractLsb' 0 8))) ∧
  (∀ (c : Config) (b : Block c.freqBits), b.mode ≠ .error → b.cmd.extractLsb' 12 4 = 1#4 →
    b.cmd.extractLsb' 8 4 ≠ 0#4 → runSampled ⟨c, b⟩ = .next ⟨c,
      { b with mode := .error, err := .illegalCmd, errcmd := b.cmd, resp := .illegalCmd }⟩)

/-- LOAD_PAIR (R54, R86, R87): in IDLE a nonzero frequency for an absent symbol is entered; a zero frequency
raises ZERO_FREQ, whether or not the symbol is present; else a present symbol raises DUP_SYMBOL; in BUILT it
raises BAD_STATE; its words with `cmd[11:8]` not zero raise ILLEGAL_CMD. -/
def Obligations.LoadPairEffect : Prop :=
  (∀ (c : Config) (b : Block c.freqBits) (sym : Sym),
    (b.mode = .idle → b.din ≠ 0#_ → b.freqAt sym = 0#_ →
      ∃ t : Block c.freqBits, exec (.loadPair sym) ⟨c, b⟩ = .next ⟨c, t⟩ ∧
      t.freqAt sym = b.din ∧ (∀ s, s ≠ sym → t.freqAt s = b.freqAt s) ∧
      t = { b with freq := t.freq, resp := .ok }) ∧
    (b.mode = .idle → b.din = 0#_ → exec (.loadPair sym) ⟨c, b⟩ = .next ⟨c,
      { b with mode := .error, err := .zeroFreq, errcmd := b.cmd, resp := .zeroFreq }⟩) ∧
    (b.mode = .idle → b.din ≠ 0#_ → b.freqAt sym ≠ 0#_ → exec (.loadPair sym) ⟨c, b⟩ = .next ⟨c,
      { b with mode := .error, err := .dupSymbol, errcmd := b.cmd, resp := .dupSymbol }⟩) ∧
    (b.mode = .built → exec (.loadPair sym) ⟨c, b⟩ = .next ⟨c,
      { b with mode := .error, err := .badState, errcmd := b.cmd, resp := .badState }⟩)) ∧
  (∀ w : CmdWord, w.extractLsb' 12 4 = 2#4 → w.extractLsb' 8 4 = 0#4 →
    decode w = .instr (.loadPair (w.extractLsb' 0 8))) ∧
  (∀ (c : Config) (b : Block c.freqBits), b.mode ≠ .error → b.cmd.extractLsb' 12 4 = 2#4 →
    b.cmd.extractLsb' 8 4 ≠ 0#4 → runSampled ⟨c, b⟩ = .next ⟨c,
      { b with mode := .error, err := .illegalCmd, errcmd := b.cmd, resp := .illegalCmd }⟩)

/-- READ_NODE (R75): in BUILT, with the index below NODECNT, the six read-out registers take the record and
its index, and nothing else but RESP changes; at or above NODECNT it raises BAD_INDEX; in IDLE it raises
BAD_STATE; its words with `cmd[11:9]` not zero raise ILLEGAL_CMD. -/
def Obligations.ReadNodeEffect : Prop :=
  (∀ (c : Config) (b : Block c.freqBits) (idx : Idx),
    (b.mode = .built → idx.toNat < b.nodecnt.toNat →
      exec (.readNode idx) ⟨c, b⟩ = .next ⟨c,
        { b with
          rTag := (b.nodeAt idx).tag, rSym := (b.nodeAt idx).sym, rFreq := (b.nodeAt idx).freq
          rLeft := (b.nodeAt idx).left, rRight := (b.nodeAt idx).right, rIdx := idx
          resp := .ok }⟩) ∧
    (b.mode = .built → b.nodecnt.toNat ≤ idx.toNat → exec (.readNode idx) ⟨c, b⟩ = .next ⟨c,
      { b with mode := .error, err := .badIndex, errcmd := b.cmd, resp := .badIndex }⟩) ∧
    (b.mode = .idle → exec (.readNode idx) ⟨c, b⟩ = .next ⟨c,
      { b with mode := .error, err := .badState, errcmd := b.cmd, resp := .badState }⟩)) ∧
  (∀ w : CmdWord, w.extractLsb' 12 4 = 4#4 → w.extractLsb' 9 3 = 0#3 →
    decode w = .instr (.readNode (w.extractLsb' 0 9))) ∧
  (∀ (c : Config) (b : Block c.freqBits), b.mode ≠ .error → b.cmd.extractLsb' 12 4 = 4#4 →
    b.cmd.extractLsb' 9 3 ≠ 0#3 → runSampled ⟨c, b⟩ = .next ⟨c,
      { b with mode := .error, err := .illegalCmd, errcmd := b.cmd, resp := .illegalCmd }⟩)

/-- READ_LEAF (R76): as READ_NODE over the leaf list, with R_LEFT and R_RIGHT written NIL. -/
def Obligations.ReadLeafEffect : Prop :=
  (∀ (c : Config) (b : Block c.freqBits) (k : Idx),
    (b.mode = .built → k.toNat < b.leafcnt.toNat →
      exec (.readLeaf k) ⟨c, b⟩ = .next ⟨c,
        { b with
          rTag := (b.nodeAt k).tag, rSym := (b.nodeAt k).sym, rFreq := (b.nodeAt k).freq
          rLeft := 0x1FF#9, rRight := 0x1FF#9, rIdx := k
          resp := .ok }⟩) ∧
    (b.mode = .built → b.leafcnt.toNat ≤ k.toNat → exec (.readLeaf k) ⟨c, b⟩ = .next ⟨c,
      { b with mode := .error, err := .badIndex, errcmd := b.cmd, resp := .badIndex }⟩) ∧
    (b.mode = .idle → exec (.readLeaf k) ⟨c, b⟩ = .next ⟨c,
      { b with mode := .error, err := .badState, errcmd := b.cmd, resp := .badState }⟩)) ∧
  (∀ w : CmdWord, w.extractLsb' 12 4 = 5#4 → w.extractLsb' 9 3 = 0#3 →
    decode w = .instr (.readLeaf (w.extractLsb' 0 9))) ∧
  (∀ (c : Config) (b : Block c.freqBits), b.mode ≠ .error → b.cmd.extractLsb' 12 4 = 5#4 →
    b.cmd.extractLsb' 9 3 ≠ 0#3 → runSampled ⟨c, b⟩ = .next ⟨c,
      { b with mode := .error, err := .illegalCmd, errcmd := b.cmd, resp := .illegalCmd }⟩)

/-- READ_FREQ (R77): in IDLE and BUILT it writes R_SYM, R_FREQ and RESP only; its words with `cmd[11:8]` not
zero raise ILLEGAL_CMD. -/
def Obligations.ReadFreqEffect : Prop :=
  (∀ (c : Config) (b : Block c.freqBits) (sym : Sym), b.mode ≠ .error →
    exec (.readFreq sym) ⟨c, b⟩ = .next ⟨c,
      { b with rSym := sym, rFreq := b.freqAt sym, resp := .ok }⟩) ∧
  (∀ w : CmdWord, w.extractLsb' 12 4 = 6#4 → w.extractLsb' 8 4 = 0#4 →
    decode w = .instr (.readFreq (w.extractLsb' 0 8))) ∧
  (∀ (c : Config) (b : Block c.freqBits), b.mode ≠ .error → b.cmd.extractLsb' 12 4 = 6#4 →
    b.cmd.extractLsb' 8 4 ≠ 0#4 → runSampled ⟨c, b⟩ = .next ⟨c,
      { b with mode := .error, err := .illegalCmd, errcmd := b.cmd, resp := .illegalCmd }⟩)

/-- CLEAR (R81): in every state it leaves every register and the table at their empty values. Any other word
with its opcode raises ILLEGAL_CMD, and in ERROR is ignored. What the port has sampled, what the host drives
next, and a BUILD in progress (the model's own fields and BUSY) are unchanged. -/
def Obligations.ClearEffect : Prop :=
  (∀ (c : Config) (b : Block c.freqBits), ∃ t : Block c.freqBits,
    exec .clear ⟨c, b⟩ = .next ⟨c, t⟩ ∧
    t.mode = .idle ∧ t.rootLeaf = false ∧ t.err = .ok ∧ t.leafcnt = 0#9 ∧ t.nodecnt = 0#9 ∧
    t.root = 0x1FF#9 ∧ t.total = 0#_ ∧ t.maxfreq = 0#_ ∧ t.fwbytes = 0#8 ∧ t.resp = .ok ∧
    t.errcmd = 0x0000#16 ∧ t.rTag = .leaf ∧ t.rSym = 0#8 ∧ t.rFreq = 0#_ ∧ t.rLeft = 0x1FF#9 ∧
    t.rRight = 0x1FF#9 ∧ t.rIdx = 0x1FF#9 ∧ (∀ s : Sym, t.freqAt s = 0#_) ∧
    t.building = b.building ∧ t.cmd = b.cmd ∧ t.din = b.din ∧ t.host = b.host) ∧
  decode 0x0000#16 = .instr .clear ∧
  (∀ (c : Config) (b : Block c.freqBits), b.cmd.extractLsb' 12 4 = 0#4 → b.cmd ≠ 0x0000#16 →
    (b.mode ≠ .error → runSampled ⟨c, b⟩ = .next ⟨c,
      { b with mode := .error, err := .illegalCmd, errcmd := b.cmd, resp := .illegalCmd }⟩) ∧
    (b.mode = .error → runSampled ⟨c, b⟩ = .next ⟨c, { b with resp := b.err }⟩))

/-- BUILD's input checks (R57, R88, R89) and its state check: an empty table raises EMPTY_TABLE, else an
exact sum beyond FREQ_BITS raises FREQ_OVERFLOW, and in BUILT it raises BAD_STATE. -/
def Obligations.BuildInputChecks : Prop :=
  ∀ (c : Config) (b : Block c.freqBits),
    (b.mode = .idle → (∀ s : Sym, b.freqAt s = 0#_) → exec .build ⟨c, b⟩ = .next ⟨c,
      { b with mode := .error, err := .emptyTable, errcmd := b.cmd, resp := .emptyTable }⟩) ∧
    (b.mode = .idle → (∃ s : Sym, b.freqAt s ≠ 0#_) →
      2 ^ c.freqBits - 1 < (allSyms.map (fun s => (b.freqAt s).toNat)).sum →
      exec .build ⟨c, b⟩ = .next ⟨c,
        { b with mode := .error, err := .freqOverflow, errcmd := b.cmd, resp := .freqOverflow }⟩) ∧
    (b.mode = .built → exec .build ⟨c, b⟩ = .next ⟨c,
      { b with mode := .error, err := .badState, errcmd := b.cmd, resp := .badState }⟩)

/-- A BUILD whose table passes the input checks completes in BUILT, with a valid tree of the table (R71 items
1 to 7, R19), and changes nothing but the arena, WORK, NEXT, the result registers, STATE, ROOT_LEAF and RESP:
the table, ERR, ERRCMD and the read-out registers are kept (R56, R70). -/
def Obligations.BuildYieldsValidTree : Prop :=
  ∀ (c : Config) (b : Block c.freqBits), b.mode = .idle → (∃ s : Sym, b.freqAt s ≠ 0#_) →
    (allSyms.map (fun s => (b.freqAt s).toNat)).sum ≤ 2 ^ c.freqBits - 1 →
    ∃ t : Block c.freqBits, exec .build ⟨c, b⟩ = .next ⟨c, t⟩ ∧ t.TreeValid ∧
      t = { b with
        mode := .built, resp := .ok, rootLeaf := t.rootLeaf
        arena := t.arena, work := t.work, nextIdx := t.nextIdx
        leafcnt := t.leafcnt, nodecnt := t.nodecnt, root := t.root
        total := t.total, maxfreq := t.maxfreq, fwbytes := t.fwbytes }

/-- BUILD is the seeding and then n − 1 merges, one after the other, for a table that passes the input checks:
leaf `k` of the seed order is record `k` (R59), and WORK starts as 0 to n − 1; each merge takes the last element
`a` and the one before it `b`, of which `a` has the lower or equal frequency, writes the record with `a` on the
left, `b` on the right and the exact sum (R63, R64), and puts its index where R65 says; the last element left is ROOT, 2n − 2 for n ≥ 2, and NODECNT is
2n − 1 (R66). -/
def Obligations.BuildSeedsThenMerges : Prop :=
  ∀ (c : Config) (b : Block c.freqBits) (n : Nat), b.mode = .idle →
    n = (allSyms.filter (fun s => b.freqAt s ≠ 0#_)).length → 1 ≤ n →
    (allSyms.map (fun s => (b.freqAt s).toNat)).sum ≤ 2 ^ c.freqBits - 1 →
    let F := fun k : Nat => mergeLoop b.draws k (seedForest b.freq)
    let f := fun (k : Nat) (i : Idx) => freqOf b.draws (F k).nodes i
    (F 0).work = (List.range n).map (BitVec.ofNat 9) ∧ (F 0).nodes.length = n ∧
    (∀ (k : Nat) (s : Sym), (seedList b.freq)[k]? = some s →
      (F 0).nodes[k]? = some (⟨.leaf, s, b.freqAt s, 0x1FF#9, 0x1FF#9⟩ : Node c.freqBits)) ∧
    (∀ k : Nat, k + 1 < n → ∃ (front : List Idx) (x a : Idx) (v : BitVec c.freqBits),
      (F k).work = front ++ [x, a] ∧ f k a ≤ f k x ∧ v.toNat = f k a + f k x ∧
      (F (k + 1)).nodes = (F k).nodes ++ [(⟨.internal, 0x00#8, v, a, x⟩ : Node c.freqBits)] ∧
      (F (k + 1)).work =
        insertAt front (insertPos b.draws (F k).nodes front (f k a + f k x)) (BitVec.ofNat 9 (n + k))) ∧
    ∃ t : Block c.freqBits, exec .build ⟨c, b⟩ = .next ⟨c, t⟩ ∧ t.mode = .built ∧
      t.arena = (F (n - 1)).nodes ∧ t.work = (F (n - 1)).work ∧ t.work = [t.root] ∧
      t.nodecnt.toNat = 2 * n - 1 ∧ (2 ≤ n → t.root.toNat = 2 * n - 2)

/-- With one leaf no merge runs, ROOT is 0, NODECNT is 1, node 0 is that leaf, and ROOT_LEAF is 1; with two or
more ROOT_LEAF is 0 (R67). For every number of leaves NODECNT is 2n − 1 and, with two or more, ROOT is 2n − 2
(R66), and WORK is left with ROOT alone (R22). -/
def Obligations.OneLeafNeedsNoMerge : Prop :=
  ∀ (c : Config) (b : Block c.freqBits) (n : Nat), b.mode = .idle →
    n = (allSyms.filter (fun s => b.freqAt s ≠ 0#_)).length → 1 ≤ n →
    (allSyms.map (fun s => (b.freqAt s).toNat)).sum ≤ 2 ^ c.freqBits - 1 →
    ∃ t : Block c.freqBits, exec .build ⟨c, b⟩ = .next ⟨c, t⟩ ∧ t.mode = .built ∧
      t.nodecnt.toNat = 2 * n - 1 ∧ t.work = [t.root] ∧
      (2 ≤ n → t.root.toNat = 2 * n - 2 ∧ t.rootLeaf = false) ∧
      (n = 1 → t.root = 0#9 ∧ t.nodecnt = 1#9 ∧ t.rootLeaf = true ∧
        ∃ s, b.freqAt s ≠ 0#_ ∧ t.arena = [⟨.leaf, s, b.freqAt s, 0x1FF#9, 0x1FF#9⟩])

/-- The statistics (R68) and the byte width (R69): LEAFCNT is the number of leaves, TOTAL the exact sum of the
table and the root's frequency, MAXFREQ the largest entry and node 0's frequency, FWBYTES the least number of
whole bytes, at least 1, that holds MAXFREQ. -/
def Obligations.BuildStatistics : Prop :=
  ∀ (c : Config) (b : Block c.freqBits), b.mode = .idle → (∃ s : Sym, b.freqAt s ≠ 0#_) →
    (allSyms.map (fun s => (b.freqAt s).toNat)).sum ≤ 2 ^ c.freqBits - 1 →
    ∃ t : Block c.freqBits, exec .build ⟨c, b⟩ = .next ⟨c, t⟩ ∧ t.mode = .built ∧
      t.leafcnt.toNat = (allSyms.filter (fun s => b.freqAt s ≠ 0#_)).length ∧
      t.total.toNat = (allSyms.map (fun s => (b.freqAt s).toNat)).sum ∧
      t.total = (t.nodeAt t.root).freq ∧
      t.maxfreq = (t.nodeAt 0#9).freq ∧ (∀ s : Sym, (b.freqAt s).toNat ≤ t.maxfreq.toNat) ∧
      (∃ s : Sym, b.freqAt s = t.maxfreq) ∧
      1 ≤ t.fwbytes.toNat ∧ t.maxfreq.toNat < 256 ^ t.fwbytes.toNat ∧
      (∀ k, 1 ≤ k → t.maxfreq.toNat < 256 ^ k → t.fwbytes.toNat ≤ k)

/-- BUILD's result is a function of the table alone (R72): two blocks with the same table get the same arena,
the same result registers and the same STATUS, whatever they held before. -/
def Obligations.BuildDependsOnTableOnly : Prop :=
  ∀ (c : Config) (b b' t t' : Block c.freqBits), b.Inv → b'.Inv → b.mode = .idle → b'.mode = .idle →
    b.building = none → b'.building = none → b.freq = b'.freq →
    exec .build ⟨c, b⟩ = .next ⟨c, t⟩ → exec .build ⟨c, b'⟩ = .next ⟨c, t'⟩ →
    t.statusWord = t'.statusWord ∧ t.leafcnt = t'.leafcnt ∧ t.nodecnt = t'.nodecnt ∧
      t.root = t'.root ∧ t.total = t'.total ∧ t.maxfreq = t'.maxfreq ∧ t.fwbytes = t'.fwbytes ∧
      (∀ i : Idx, i.toNat < t.nodecnt.toNat → t.nodeAt i = t'.nodeAt i)

/-- No frequency computed during a BUILD that passed the sum check leaves FREQ_BITS (R73): at every merge of
the loop the exact sum is at most the table's sum, and the merged node holds it exactly. -/
def Obligations.MergeNeverOverflows : Prop :=
  ∀ (w draw steps : Nat) (table : Vector (BitVec w) 256) (front : List Idx) (a b : Idx),
    tableSum table ≤ 2 ^ w - 1 →
    (mergeLoop draw steps (seedForest table)).work = front ++ [b, a] →
    let nodes := (mergeLoop draw steps (seedForest table)).nodes
    freqOf draw nodes a + freqOf draw nodes b ≤ tableSum table ∧
      (mergedNode draw nodes a b).freq.toNat = freqOf draw nodes a + freqOf draw nodes b

/-- A merged node goes right before the first element of smaller frequency, or to the tail; so in an ordered
WORK, which WorkStaysOrdered says it is, it goes after every element of equal or larger frequency and before
every smaller one; the others keep their order (R65). -/
def Obligations.MergedNodeInsertedAfterEquals : Prop :=
  ∀ (w draw : Nat) (nodes : List (Node w)) (work : List Idx) (f : Nat) (v : Idx),
    let p := insertPos draw nodes work f
    p ≤ work.length ∧
    (∀ j x, j < p → work[j]? = some x → f ≤ freqOf draw nodes x) ∧
    (∀ x, work[p]? = some x → freqOf draw nodes x < f) ∧
    ((∀ x ∈ work, f ≤ freqOf draw nodes x) → p = work.length) ∧
    (work.Pairwise (fun x y => freqOf draw nodes y ≤ freqOf draw nodes x) →
      ∀ (j : Nat) (x : Idx), work[j]? = some x →
        (f ≤ freqOf draw nodes x → j < p) ∧ (freqOf draw nodes x < f → p ≤ j)) ∧
    (insertAt work p v)[p]? = some v ∧
    (∀ j, j < p → (insertAt work p v)[j]? = work[j]?) ∧
    (∀ j, p ≤ j → (insertAt work p v)[j + 1]? = work[j]?)

/-- The working sequence stays ordered by non-increasing frequency through the whole build, and each merge
takes the two lowest, `a` first and no larger than `b` (R22, R61, R62). -/
def Obligations.WorkStaysOrdered : Prop :=
  ∀ (w draw steps : Nat) (table : Vector (BitVec w) 256), tableSum table ≤ 2 ^ w - 1 →
    let F := mergeLoop draw steps (seedForest table)
    F.work.Pairwise (fun x y => freqOf draw F.nodes y ≤ freqOf draw F.nodes x) ∧
    (∀ front a b, F.work = front ++ [b, a] →
      freqOf draw F.nodes a ≤ freqOf draw F.nodes b ∧
      ∀ x ∈ front, freqOf draw F.nodes b ≤ freqOf draw F.nodes x)

/-- The seed order is the one R12 defines, and it is a strict total order on symbols. -/
def Obligations.SeedOrderStrictTotal : Prop :=
  ∀ (w : Nat) (table : Vector (BitVec w) 256) (s t u : Sym),
    (seedBefore table s t = true ↔
      ((tableAt table t).toNat < (tableAt table s).toNat ∨
        (tableAt table s = tableAt table t ∧ s.toNat < t.toNat))) ∧
    seedBefore table s s = false ∧
    (seedBefore table s t = true → seedBefore table t u = true → seedBefore table s u = true) ∧
    (s ≠ t → seedBefore table s t = true ∨ seedBefore table t s = true)

/-- The leaves are exactly the symbols with nonzero frequency, each once, in the seed order (R58). -/
def Obligations.SeedingSortsPresentSymbols : Prop :=
  ∀ (w : Nat) (table : Vector (BitVec w) 256),
    (∀ s : Sym, s ∈ seedList table ↔ tableAt table s ≠ 0#w) ∧
    (seedList table).Pairwise (fun s t =>
      (tableAt table t).toNat < (tableAt table s).toNat ∨
        (tableAt table s = tableAt table t ∧ s.toNat < t.toNat))

/-- The byte width is the least that holds the value, is never zero, and fits its 8 bits for every FREQ_BITS
(R69). -/
def Obligations.FieldBytesLeast : Prop :=
  (∀ m : Nat, 1 ≤ fieldBytes m ∧ m < 256 ^ fieldBytes m ∧
    ∀ k, 1 ≤ k → m < 256 ^ k → fieldBytes m ≤ k) ∧
  (∀ (c : Config) (v : BitVec c.freqBits), fieldBytes v.toNat ≤ 255)

/-! ## The tree as the neighbour blocks read it -/

/-- In a valid tree every node has exactly one path label; the root's is empty, and a child's is its parent's
with a 0 on the left edge and a 1 on the right (R78). -/
def Obligations.EveryNodeHasOnePathLabel : Prop :=
  ∀ (c : Config) (b : Block c.freqBits), b.TreeValid →
    IsPathLabel b b.root [] ∧
    (∀ (j : Idx) (bits : List Bool), IsPathLabel b j bits → (b.nodeAt j).tag = .internal →
      IsPathLabel b (b.nodeAt j).left (bits ++ [false]) ∧
      IsPathLabel b (b.nodeAt j).right (bits ++ [true])) ∧
    (∀ i : Idx, i.toNat < b.nodecnt.toNat →
      ∃ bits, IsPathLabel b i bits ∧ ∀ bits', IsPathLabel b i bits' → bits' = bits)

/-- The leaves' labels are prefix-free; with two leaves or more none is empty, and with one leaf its label is
empty (R78). -/
def Obligations.LeafLabelsPrefixFree : Prop :=
  ∀ (c : Config) (b : Block c.freqBits), b.TreeValid →
    ∀ (i j : Idx) (li lj : List Bool), i.toNat < b.leafcnt.toNat → j.toNat < b.leafcnt.toNat →
      IsPathLabel b i li → IsPathLabel b j lj →
      (i ≠ j → ¬ li <+: lj) ∧ (2 ≤ b.leafcnt.toNat → 1 ≤ li.length) ∧
      (b.rootLeaf = true → li = [])

/-- No codeword is longer than LEAFCNT − 1 bits, which is at most 255 (R80). -/
def Obligations.CodewordLengthBound : Prop :=
  ∀ (c : Config) (b : Block c.freqBits), b.TreeValid →
    ∀ (i : Idx) (bits : List Bool), i.toNat < b.leafcnt.toNat → IsPathLabel b i bits →
      bits.length ≤ b.leafcnt.toNat - 1 ∧ b.leafcnt.toNat - 1 ≤ 255

/-- The weighted path length over the leaves equals the sum of the internal nodes' frequencies (R74's
identity, which the spec marks as general knowledge). -/
def Obligations.WeightedLengthIsInternalSum : Prop :=
  ∀ (c : Config) (b : Block c.freqBits) (depth : Nat → Nat), b.TreeValid →
    (∀ k : Idx, k.toNat < b.leafcnt.toNat → ∃ bits, IsPathLabel b k bits ∧ bits.length = depth k.toNat) →
    weightedLength b depth = internalSum b.arena

/-- The tree BUILD produces has the least weighted path length among all binary trees with the same leaves
(R74, which the spec marks as general knowledge). -/
def Obligations.BuiltTreeIsOptimal : Prop :=
  ∀ (c : Config) (b t : Block c.freqBits) (other : CodeTree), b.mode = .idle →
    exec .build ⟨c, b⟩ = .next ⟨c, t⟩ → t.mode = .built →
    other.syms.Perm (allSyms.filter (fun s => b.freqAt s ≠ 0#_)) →
    internalSum t.arena ≤ other.costAt b.freq 0

/-- READ_LEAF k and READ_NODE k have the same effect for every k below LEAFCNT, and show a leaf (R60, R76). -/
def Obligations.ReadLeafMatchesReadNode : Prop :=
  ∀ (c : Config) (b : Block c.freqBits) (k : Idx), b.Inv → b.mode = .built →
    k.toNat < b.leafcnt.toNat →
    ∃ t : Block c.freqBits, exec (.readLeaf k) ⟨c, b⟩ = .next ⟨c, t⟩ ∧
      exec (.readNode k) ⟨c, b⟩ = .next ⟨c, t⟩ ∧ t.rTag = .leaf ∧ t.resp = .ok

/-! ## Loading a table, and rebuilding a tree from its header -/

/-- Loading pairs with distinct symbols gives exactly the table of those pairs, in whatever order they come:
LOAD_PAIR with nonzero frequencies, SET_FREQ with any; and a histogram and its header's pairs leave the same
table (R55). -/
def Obligations.LoadingGivesTheTable : Prop :=
  ∀ (c : Config) (b : Block c.freqBits) (pairs : List (Sym × BitVec c.freqBits)),
    b.mode = .idle → b.building = none → (∀ s : Sym, b.freqAt s = 0#_) →
    (pairs.map Prod.fst).Nodup →
    ((∀ q ∈ pairs, q.2 ≠ 0#_) →
      ∃ t : Block c.freqBits, session ⟨c, b⟩ (loadPairCommands pairs) = .next ⟨c, t⟩ ∧ t.mode = .idle ∧
        (∀ q ∈ pairs, t.freqAt q.1 = q.2) ∧ (∀ s, s ∉ pairs.map Prod.fst → t.freqAt s = 0#_)) ∧
    (∃ t : Block c.freqBits, session ⟨c, b⟩ (setFreqCommands pairs) = .next ⟨c, t⟩ ∧ t.mode = .idle ∧
        (∀ q ∈ pairs, t.freqAt q.1 = q.2) ∧ (∀ s, s ∉ pairs.map Prod.fst → t.freqAt s = 0#_)) ∧
    (∃ t t' : Block c.freqBits, session ⟨c, b⟩ (setFreqCommands pairs) = .next ⟨c, t⟩ ∧
        session ⟨c, b⟩ (loadPairCommands (pairs.filter (fun q => q.2 ≠ 0#_))) = .next ⟨c, t'⟩ ∧
        t.freq = t'.freq)

/-- The determinism the container rests on: the header pairs read from a built tree, loaded in any order into
an empty block, rebuild the identical tree (R55, R60, R72). -/
def Obligations.HeaderPairsRebuildTheTree : Prop :=
  ∀ (c : Config) (b t b' : Block c.freqBits) (pairs : List (Sym × BitVec c.freqBits)),
    b.mode = .idle → exec .build ⟨c, b⟩ = .next ⟨c, t⟩ → t.mode = .built →
    b'.mode = .idle → b'.building = none → (∀ s : Sym, b'.freqAt s = 0#_) →
    pairs.Perm (leafPairs t) →
    ∃ u : Block c.freqBits,
      session ⟨c, b'⟩ (loadPairCommands pairs ++ [(encode .build, 0#_)]) = .next ⟨c, u⟩ ∧
      u.mode = .built ∧ u.arena = t.arena ∧ u.root = t.root ∧ u.leafcnt = t.leafcnt ∧
      u.nodecnt = t.nodecnt ∧ u.total = t.total ∧ u.maxfreq = t.maxfreq ∧ u.fwbytes = t.fwbytes ∧
      u.rootLeaf = t.rootLeaf ∧ u.freq = t.freq

/-! ## Invariants and whole-machine rules -/

/-- A transaction keeps the invariant. -/
def Obligations.StepKeepsInvariant : Prop :=
  ∀ s s' : State, s.Inv → step s = .next s' → s'.Inv

/-- A clock edge keeps the invariant. -/
def Obligations.ClockEdgeKeepsInvariant : Prop :=
  ∀ s s' : State, s.Inv → clockEdge s = .next s' → s'.Inv

/-- The reset state of every configuration meets the invariant. -/
def Obligations.ResetMeetsInvariant : Prop :=
  State.reset.Inv ∧ ∀ c : Config, (State.resetOf c).Inv

/-- A step runs the decoded command: where no BUILD is in progress and the host offers a word that decodes to
`i`, the step is `exec i` at the state with the port sampled and that offer taken from the queue. The second
part says the same of the state that `withFetchWord` makes. -/
def Obligations.StepRunsDecodedCommand : Prop :=
  (∀ (c : Config) (b : Block c.freqBits) (p : PortIn c.freqBits) (rest : List (PortIn c.freqBits))
    (i : Instr),
    b.building = none → b.host = p :: rest → p.rst = false → p.cmdValid = true →
    decode p.cmd = .instr i →
    step ⟨c, b⟩ = exec i ⟨c, { b with host := rest, cmd := p.cmd, din := p.din }⟩) ∧
  (∀ (c : Config) (b : Block c.freqBits) (nbits w : Nat) (i : Instr),
    decodeTableWord nbits w = some i →
    step (State.withFetchWord ⟨c, b⟩ nbits w) =
      exec i ⟨c, { b with building := none, cmd := tableWord nbits w }⟩)

/-- Where the host offers nothing, a step changes nothing but the queue; while BUSY it is the completion of the
BUILD, which no offer disturbs (R38, R103; the model's log entries 2 and 5). -/
def Obligations.StepWithoutCommand : Prop :=
  ∀ (c : Config) (b : Block c.freqBits),
    (b.building = none → b.host = [] → step ⟨c, b⟩ = .next ⟨c, b⟩) ∧
    (∀ p rest, b.building = none → b.host = p :: rest → p.rst = false → p.cmdValid = false →
      step ⟨c, b⟩ = .next ⟨c, { b with host := rest }⟩) ∧
    (∀ left, b.building = some left → (∀ p ∈ b.host.head?, p.rst = false) →
      step ⟨c, b⟩ = exec .build ⟨c, { b with building := none }⟩)

/-- Every state, every command and every edge has a next state, and none changes the configuration (R31,
R49). -/
def Obligations.EveryCommandHasANextState : Prop :=
  ∀ s : State,
    (∃ s', step s = .next s' ∧ s'.cfg = s.cfg) ∧
    (∃ s', clockEdge s = .next s' ∧ s'.cfg = s.cfg) ∧
    (∀ i : Instr, ∃ s', exec i s = .next s' ∧ s'.cfg = s.cfg)

/-- From BUILT until CLEAR or reset, the table, the arena and the result registers do not change (R70). -/
def Obligations.BuiltTreeIsFrozen : Prop :=
  ∀ (c : Config) (b t : Block c.freqBits), b.mode = .built → step ⟨c, b⟩ = .next ⟨c, t⟩ →
    (∃ p rest, b.host = p :: rest ∧ (p.rst = true ∨ (p.cmdValid = true ∧ p.cmd = 0x0000#16))) ∨
    (t.freq = b.freq ∧ t.arena = b.arena ∧ t.root = b.root ∧ t.leafcnt = b.leafcnt ∧
      t.nodecnt = b.nodecnt ∧ t.total = b.total ∧ t.maxfreq = b.maxfreq ∧ t.fwbytes = b.fwbytes ∧
      t.rootLeaf = b.rootLeaf ∧ (∀ i : Idx, t.nodeAt i = b.nodeAt i))

/-- The transitions of STATE, BUSY apart (R16): IDLE is entered from another state only by CLEAR or reset, and
BUILT only from IDLE by a BUILD. -/
def Obligations.StateTransitions : Prop :=
  ∀ (c : Config) (b t : Block c.freqBits), step ⟨c, b⟩ = .next ⟨c, t⟩ →
    (b.mode ≠ .idle → t.mode = .idle →
      ∃ p rest, b.host = p :: rest ∧ (p.rst = true ∨ (p.cmdValid = true ∧ p.cmd = 0x0000#16))) ∧
    (b.mode ≠ .built → t.mode = .built → b.mode = .idle ∧
      (b.busy = true ∨ ∃ p rest, b.host = p :: rest ∧ p.cmdValid = true ∧ p.cmd = 0x3000#16))

/-- RESP after an accepted command (R25): OK on success, the raised code on an error, and the current ERR when
the command is ignored in ERROR; reset writes it 0. -/
def Obligations.RespIsTheResult : Prop :=
  (∀ (c : Config) (b t : Block c.freqBits), runSampled ⟨c, b⟩ = .next ⟨c, t⟩ →
    (t.mode ≠ .error → t.resp = .ok) ∧
    (b.mode ≠ .error → t.mode = .error → t.resp = t.err ∧ t.resp ≠ .ok) ∧
    (b.mode = .error → t.mode = .error → t.resp = b.err)) ∧
  (∀ (c : Config) (b t : Block c.freqBits) (p : PortIn c.freqBits) (rest : List (PortIn c.freqBits)),
    b.host = p :: rest → p.rst = true → step ⟨c, b⟩ = .next ⟨c, t⟩ → t.resp.code = 0#4)

/-- The layout of STATUS (R15), with the codes of STATE (R16) and of ERR (R83), and ERR reads 0 while STATE is not
ERROR. -/
def Obligations.StatusLayout : Prop :=
  ∀ (c : Config) (b : Block c.freqBits),
    (b.building = none →
      b.statusWord.extractLsb' 0 2 =
        (match b.mode with | .idle => 0#2 | .built => 2#2 | .error => 3#2) ∧
      b.statusWord.extractLsb' 2 1 = (if b.rootLeaf then 1#1 else 0#1) ∧
      b.statusWord.extractLsb' 4 4 = (match b.err with
        | .ok => 0#4 | .illegalCmd => 1#4 | .badState => 2#4 | .dupSymbol => 3#4
        | .zeroFreq => 4#4 | .emptyTable => 5#4 | .freqOverflow => 6#4 | .badIndex => 7#4)) ∧
    (∀ left, b.building = some left → b.statusWord.extractLsb' 0 2 = 1#2) ∧
    b.statusWord.extractLsb' 3 1 = 0#1 ∧ b.statusWord.extractLsb' 8 8 = 0#8 ∧
    (b.Inv → b.statusWord.extractLsb' 0 2 ≠ 3#2 → b.statusWord.extractLsb' 4 4 = 0#4)

/-- Reads have no side effect on storage and are idempotent; SET_FREQ is idempotent, and a second LOAD_PAIR of
the same symbol raises DUP_SYMBOL; a read that raised an error is ignored when repeated (R36). -/
def Obligations.ReadsAreIdempotent : Prop :=
  ∀ (c : Config) (b t : Block c.freqBits),
    (∀ i : Instr, ((∃ k, i = .readNode k) ∨ (∃ k, i = .readLeaf k) ∨ (∃ s, i = .readFreq s)) →
      exec i ⟨c, b⟩ = .next ⟨c, t⟩ →
      (t.freq = b.freq ∧ t.arena = b.arena ∧ (∀ j : Idx, t.nodeAt j = b.nodeAt j)) ∧
      (t.mode ≠ .error → exec i ⟨c, t⟩ = .next ⟨c, t⟩ ∧
        t = { b with
          rTag := t.rTag, rSym := t.rSym, rFreq := t.rFreq, rLeft := t.rLeft
          rRight := t.rRight, rIdx := t.rIdx, resp := .ok }) ∧
      (t.mode = .error → exec i ⟨c, t⟩ = .next ⟨c, { t with resp := t.err }⟩)) ∧
    (∀ sym : Sym, b.mode = .idle → exec (.setFreq sym) ⟨c, b⟩ = .next ⟨c, t⟩ →
      exec (.setFreq sym) ⟨c, t⟩ = .next ⟨c, t⟩) ∧
    (∀ sym : Sym, b.mode = .idle → exec (.loadPair sym) ⟨c, b⟩ = .next ⟨c, t⟩ → t.mode ≠ .error →
      exec (.loadPair sym) ⟨c, t⟩ = .next ⟨c,
        { t with mode := .error, err := .dupSymbol, errcmd := t.cmd, resp := .dupSymbol }⟩)

/-- The observation of R111 shows the whole table and the defined arena entries while STATE is not ERROR, and
nothing of the unspecified ones; in ERROR the reads are ignored and show nothing. -/
def Obligations.ObservationShowsDefinedStorage : Prop :=
  ∀ (c : Config) (b : Block c.freqBits),
    (b.mode ≠ .error → (observe b).table = allSyms.map (fun s => some (b.freqAt s))) ∧
    (b.mode = .built → ∀ i : Idx, (observe b).nodes[i.toNat]? =
      some (if i.toNat < b.nodecnt.toNat then some (b.nodeAt i) else none)) ∧
    (b.mode = .idle → ∀ x ∈ (observe b).nodes, x = none) ∧
    (b.Inv → b.mode = .error →
      (∀ x ∈ (observe b).table, x = none) ∧ (∀ x ∈ (observe b).nodes, x = none))

/-! ## The clock level -/

/-- `cmd_ready` is 1 exactly when `rst` is 0 and no BUILD is in progress (R104). -/
def Obligations.ReadyUnlessResetOrBuild : Prop :=
  ∀ (c : Config) (b : Block c.freqBits) (rst : Bool),
    (b.ports rst).cmdReady = true ↔ rst = false ∧ b.building = none

/-- A command is accepted exactly where `rst` is 0, `cmd_valid` is 1 and `cmd_ready` is 1: there the word and
`din` are sampled, and at no other edge; one offered while BUSY has no effect, whatever it is; and where none
is offered nothing happens (R103). -/
def Obligations.OfferWithoutReadyHasNoEffect : Prop :=
  ∀ (c : Config) (b : Block c.freqBits) (p q : PortIn c.freqBits) (rest : List (PortIn c.freqBits)),
    p.rst = false → q.rst = false →
    (b.building ≠ none →
      clockEdge ⟨c, { b with host := p :: rest }⟩ = clockEdge ⟨c, { b with host := q :: rest }⟩ ∧
      ∃ t : Block c.freqBits, clockEdge ⟨c, { b with host := p :: rest }⟩ = .next ⟨c, t⟩ ∧
        t.cmd = b.cmd ∧ t.din = b.din ∧ t.host = rest) ∧
    (b.building = none → p.cmdValid = false →
      clockEdge ⟨c, { b with host := p :: rest }⟩ = .next ⟨c, { b with host := rest }⟩) ∧
    (b.building = none → p.cmdValid = true →
      ∃ t : Block c.freqBits, clockEdge ⟨c, { b with host := p :: rest }⟩ = .next ⟨c, t⟩ ∧
        t.cmd = p.cmd ∧ t.din = p.din ∧ t.host = rest)

/-- Every command other than BUILD completes at the edge that accepts it, with the effect it has as a
transaction, and `cmd_ready` is still 1 after it (R106). -/
def Obligations.OtherCommandsTakeOneEdge : Prop :=
  ∀ (c : Config) (b : Block c.freqBits) (p : PortIn c.freqBits) (rest : List (PortIn c.freqBits)),
    b.building = none → b.host = p :: rest → p.rst = false → p.cmdValid = true →
    decode p.cmd ≠ .instr .build →
    ∃ t : Block c.freqBits, clockEdge ⟨c, b⟩ = .next ⟨c, t⟩ ∧ step ⟨c, b⟩ = .next ⟨c, t⟩ ∧
      t.building = none ∧ (t.ports false).cmdReady = true

/-- A BUILD accepted in IDLE or BUILT shows BUSY for exactly BUILD_LATENCY edges, during which the table, the
read-out registers and ERRCMD are kept, and then has the effect of the atomic BUILD of the transaction level
(R105). NEXT is unspecified after a successful BUILD (R23), so there the two levels hold unrelated free values;
a failing one leaves it (R82). That a BUILD in BUILT is BUSY too is the model's reading of R105, log 10. -/
def Obligations.ClockedBuildRefinesAtomicBuild : Prop :=
  ∀ (c : Config) (b : Block c.freqBits) (p : PortIn c.freqBits) (rest : List (PortIn c.freqBits)),
    b.building = none → b.mode ≠ .error → b.host = p :: rest → p.rst = false → p.cmdValid = true →
    p.cmd = 0x3000#16 → (∀ q ∈ rest.take (buildLatency b.freq), q.rst = false) →
    1 ≤ buildLatency b.freq ∧
    (∀ k, 1 ≤ k → k ≤ buildLatency b.freq →
      clockCore.run k (⟨c, b⟩ : State) = .next (⟨c,
        { b with
          host := rest.drop (k - 1), cmd := p.cmd, din := p.din
          building := some (buildLatency b.freq - (k - 1)), draws := b.draws + 1 }⟩ : State)) ∧
    (∃ (t : Block c.freqBits) (v : Idx), step ⟨c, b⟩ = .next ⟨c, t⟩ ∧
      (t.mode = .error → v = b.nextIdx) ∧
      clockCore.run (buildLatency b.freq + 1) (⟨c, b⟩ : State) = .next (⟨c,
        { t with host := rest.drop (buildLatency b.freq), draws := b.draws + 1, nextIdx := v }⟩ : State))

/-- While BUSY the ports show STATE = 1, `cmd_ready` = 0, ERR = 0 and `error` = 0, and ERRCMD and the read-out
registers keep their values (R105). -/
def Obligations.BusyPortsView : Prop :=
  ∀ (c : Config) (b : Block c.freqBits) (left : Nat) (rst : Bool), b.building = some left →
    (b.ports rst).status.extractLsb' 0 2 = 1#2 ∧ (b.ports rst).cmdReady = false ∧
    (b.ports rst).status.extractLsb' 4 4 = 0#4 ∧ (b.ports rst).error = false ∧
    (b.ports rst).errcmd = b.errcmd ∧
    (b.ports rst).rTag = (match b.rTag with | .leaf => 0#1 | .internal => 1#1) ∧
    (b.ports rst).rSym = b.rSym ∧
    (b.ports rst).rFreq = b.rFreq ∧ (b.ports rst).rLeft = b.rLeft ∧ (b.ports rst).rRight = b.rRight ∧
    (b.ports rst).rIdx = b.rIdx

/-- While no BUILD is in progress, each output port carries its register's value (R13, R42), and `error` is 1
exactly in ERROR (R28). RESP shows the codes of R83, and R_TAG 0 for a leaf and 1 for an internal node (R21). -/
def Obligations.PortsCarryTheRegisters : Prop :=
  ∀ (c : Config) (b : Block c.freqBits) (rst : Bool), b.building = none →
    ((b.ports rst).error = true ↔ b.mode = .error) ∧
    (b.ports rst).status = b.statusWord ∧ (b.ports rst).leafcnt = b.leafcnt ∧
    (b.ports rst).nodecnt = b.nodecnt ∧ (b.ports rst).root = b.root ∧ (b.ports rst).total = b.total ∧
    (b.ports rst).maxfreq = b.maxfreq ∧ (b.ports rst).fwbytes = b.fwbytes ∧
    (b.ports rst).resp = (match b.resp with
      | .ok => 0#4 | .illegalCmd => 1#4 | .badState => 2#4 | .dupSymbol => 3#4
      | .zeroFreq => 4#4 | .emptyTable => 5#4 | .freqOverflow => 6#4 | .badIndex => 7#4) ∧
    (b.ports rst).errcmd = b.errcmd ∧
    (b.ports rst).rTag = (match b.rTag with | .leaf => 0#1 | .internal => 1#1) ∧
    (b.ports rst).rSym = b.rSym ∧ (b.ports rst).rFreq = b.rFreq ∧
    (b.ports rst).rLeft = b.rLeft ∧ (b.ports rst).rRight = b.rRight ∧ (b.ports rst).rIdx = b.rIdx

/-- A BUILD accepted in ERROR is ignored at the accepting edge, and shows no BUSY. The model's reading of R92,
R93 and R104, log 11. -/
def Obligations.BuildIgnoredInErrorTakesOneEdge : Prop :=
  ∀ (c : Config) (b : Block c.freqBits) (p : PortIn c.freqBits) (rest : List (PortIn c.freqBits)),
    b.building = none → b.mode = .error → b.host = p :: rest → p.rst = false → p.cmdValid = true →
    p.cmd = 0x3000#16 →
    clockEdge ⟨c, b⟩ = .next ⟨c,
      { b with host := rest, cmd := p.cmd, din := p.din, resp := b.err }⟩

/-! ## The assembler -/

/-- The assembler encodes a line by R46 and refuses any operand outside its range (R51): it answers exactly for
lines in range, the word decodes to the line's command with the operand's own value, and `din` carries the
frequency exactly. -/
def Obligations.AssemblerEncodesAndRefuses : Prop :=
  ∀ (c : Config) (l : AsmLine),
    ((assemble c l).isSome = true ↔ l.wf c = true) ∧
    (∀ word din, assemble c l = some (word, din) →
      decode word = .instr (lineInstr l) ∧ din.map BitVec.toNat = lineDin l ∧
      (∀ i, l = .readNode i ∨ l = .readLeaf i → (word.extractLsb' 0 9).toNat = i) ∧
      (∀ s f, l = .setFreq s f ∨ l = .loadPair s f ∨ l = .readFreq s →
        (word.extractLsb' 0 8).toNat = s.value))
end

