-- ==== Sys2Proof/Laws/State.lean ====
section
/-! SUPPORT. One lemma per field per update: what each shared operation does to each field of the block. -/

namespace Sys2Proof.Machine

variable {w : Nat}

@[simp] theorem raiseError_mode (code : ErrCode) (b : Block w) : (raiseError code b).mode = .error := rfl
@[simp] theorem raiseError_rootLeaf (code : ErrCode) (b : Block w) :
    (raiseError code b).rootLeaf = b.rootLeaf := rfl
@[simp] theorem raiseError_err (code : ErrCode) (b : Block w) : (raiseError code b).err = code := rfl
@[simp] theorem raiseError_leafcnt (code : ErrCode) (b : Block w) :
    (raiseError code b).leafcnt = b.leafcnt := rfl
@[simp] theorem raiseError_nodecnt (code : ErrCode) (b : Block w) :
    (raiseError code b).nodecnt = b.nodecnt := rfl
@[simp] theorem raiseError_root (code : ErrCode) (b : Block w) : (raiseError code b).root = b.root := rfl
@[simp] theorem raiseError_total (code : ErrCode) (b : Block w) : (raiseError code b).total = b.total := rfl
@[simp] theorem raiseError_maxfreq (code : ErrCode) (b : Block w) :
    (raiseError code b).maxfreq = b.maxfreq := rfl
@[simp] theorem raiseError_fwbytes (code : ErrCode) (b : Block w) :
    (raiseError code b).fwbytes = b.fwbytes := rfl
@[simp] theorem raiseError_resp (code : ErrCode) (b : Block w) : (raiseError code b).resp = code := rfl
@[simp] theorem raiseError_errcmd (code : ErrCode) (b : Block w) : (raiseError code b).errcmd = b.cmd := rfl
@[simp] theorem raiseError_rTag (code : ErrCode) (b : Block w) : (raiseError code b).rTag = b.rTag := rfl
@[simp] theorem raiseError_rSym (code : ErrCode) (b : Block w) : (raiseError code b).rSym = b.rSym := rfl
@[simp] theorem raiseError_rFreq (code : ErrCode) (b : Block w) : (raiseError code b).rFreq = b.rFreq := rfl
@[simp] theorem raiseError_rLeft (code : ErrCode) (b : Block w) : (raiseError code b).rLeft = b.rLeft := rfl
@[simp] theorem raiseError_rRight (code : ErrCode) (b : Block w) :
    (raiseError code b).rRight = b.rRight := rfl
@[simp] theorem raiseError_rIdx (code : ErrCode) (b : Block w) : (raiseError code b).rIdx = b.rIdx := rfl
@[simp] theorem raiseError_freq (code : ErrCode) (b : Block w) : (raiseError code b).freq = b.freq := rfl
@[simp] theorem raiseError_arena (code : ErrCode) (b : Block w) : (raiseError code b).arena = b.arena := rfl
@[simp] theorem raiseError_work (code : ErrCode) (b : Block w) : (raiseError code b).work = b.work := rfl
@[simp] theorem raiseError_nextIdx (code : ErrCode) (b : Block w) :
    (raiseError code b).nextIdx = b.nextIdx := rfl
@[simp] theorem raiseError_building (code : ErrCode) (b : Block w) :
    (raiseError code b).building = b.building := rfl
@[simp] theorem raiseError_cmd (code : ErrCode) (b : Block w) : (raiseError code b).cmd = b.cmd := rfl
@[simp] theorem raiseError_din (code : ErrCode) (b : Block w) : (raiseError code b).din = b.din := rfl
@[simp] theorem raiseError_host (code : ErrCode) (b : Block w) : (raiseError code b).host = b.host := rfl
@[simp] theorem raiseError_draws (code : ErrCode) (b : Block w) : (raiseError code b).draws = b.draws := rfl

@[simp] theorem ignored_mode (b : Block w) : (ignored b).mode = b.mode := rfl
@[simp] theorem ignored_rootLeaf (b : Block w) : (ignored b).rootLeaf = b.rootLeaf := rfl
@[simp] theorem ignored_err (b : Block w) : (ignored b).err = b.err := rfl
@[simp] theorem ignored_leafcnt (b : Block w) : (ignored b).leafcnt = b.leafcnt := rfl
@[simp] theorem ignored_nodecnt (b : Block w) : (ignored b).nodecnt = b.nodecnt := rfl
@[simp] theorem ignored_root (b : Block w) : (ignored b).root = b.root := rfl
@[simp] theorem ignored_total (b : Block w) : (ignored b).total = b.total := rfl
@[simp] theorem ignored_maxfreq (b : Block w) : (ignored b).maxfreq = b.maxfreq := rfl
@[simp] theorem ignored_fwbytes (b : Block w) : (ignored b).fwbytes = b.fwbytes := rfl
@[simp] theorem ignored_resp (b : Block w) : (ignored b).resp = b.err := rfl
@[simp] theorem ignored_errcmd (b : Block w) : (ignored b).errcmd = b.errcmd := rfl
@[simp] theorem ignored_rTag (b : Block w) : (ignored b).rTag = b.rTag := rfl
@[simp] theorem ignored_rSym (b : Block w) : (ignored b).rSym = b.rSym := rfl
@[simp] theorem ignored_rFreq (b : Block w) : (ignored b).rFreq = b.rFreq := rfl
@[simp] theorem ignored_rLeft (b : Block w) : (ignored b).rLeft = b.rLeft := rfl
@[simp] theorem ignored_rRight (b : Block w) : (ignored b).rRight = b.rRight := rfl
@[simp] theorem ignored_rIdx (b : Block w) : (ignored b).rIdx = b.rIdx := rfl
@[simp] theorem ignored_freq (b : Block w) : (ignored b).freq = b.freq := rfl
@[simp] theorem ignored_arena (b : Block w) : (ignored b).arena = b.arena := rfl
@[simp] theorem ignored_work (b : Block w) : (ignored b).work = b.work := rfl
@[simp] theorem ignored_nextIdx (b : Block w) : (ignored b).nextIdx = b.nextIdx := rfl
@[simp] theorem ignored_building (b : Block w) : (ignored b).building = b.building := rfl
@[simp] theorem ignored_cmd (b : Block w) : (ignored b).cmd = b.cmd := rfl
@[simp] theorem ignored_din (b : Block w) : (ignored b).din = b.din := rfl
@[simp] theorem ignored_host (b : Block w) : (ignored b).host = b.host := rfl
@[simp] theorem ignored_draws (b : Block w) : (ignored b).draws = b.draws := rfl

@[simp] theorem respondOk_mode (b : Block w) : (respondOk b).mode = b.mode := rfl
@[simp] theorem respondOk_rootLeaf (b : Block w) : (respondOk b).rootLeaf = b.rootLeaf := rfl
@[simp] theorem respondOk_err (b : Block w) : (respondOk b).err = b.err := rfl
@[simp] theorem respondOk_leafcnt (b : Block w) : (respondOk b).leafcnt = b.leafcnt := rfl
@[simp] theorem respondOk_nodecnt (b : Block w) : (respondOk b).nodecnt = b.nodecnt := rfl
@[simp] theorem respondOk_root (b : Block w) : (respondOk b).root = b.root := rfl
@[simp] theorem respondOk_total (b : Block w) : (respondOk b).total = b.total := rfl
@[simp] theorem respondOk_maxfreq (b : Block w) : (respondOk b).maxfreq = b.maxfreq := rfl
@[simp] theorem respondOk_fwbytes (b : Block w) : (respondOk b).fwbytes = b.fwbytes := rfl
@[simp] theorem respondOk_resp (b : Block w) : (respondOk b).resp = .ok := rfl
@[simp] theorem respondOk_errcmd (b : Block w) : (respondOk b).errcmd = b.errcmd := rfl
@[simp] theorem respondOk_rTag (b : Block w) : (respondOk b).rTag = b.rTag := rfl
@[simp] theorem respondOk_rSym (b : Block w) : (respondOk b).rSym = b.rSym := rfl
@[simp] theorem respondOk_rFreq (b : Block w) : (respondOk b).rFreq = b.rFreq := rfl
@[simp] theorem respondOk_rLeft (b : Block w) : (respondOk b).rLeft = b.rLeft := rfl
@[simp] theorem respondOk_rRight (b : Block w) : (respondOk b).rRight = b.rRight := rfl
@[simp] theorem respondOk_rIdx (b : Block w) : (respondOk b).rIdx = b.rIdx := rfl
@[simp] theorem respondOk_freq (b : Block w) : (respondOk b).freq = b.freq := rfl
@[simp] theorem respondOk_arena (b : Block w) : (respondOk b).arena = b.arena := rfl
@[simp] theorem respondOk_work (b : Block w) : (respondOk b).work = b.work := rfl
@[simp] theorem respondOk_nextIdx (b : Block w) : (respondOk b).nextIdx = b.nextIdx := rfl
@[simp] theorem respondOk_building (b : Block w) : (respondOk b).building = b.building := rfl
@[simp] theorem respondOk_cmd (b : Block w) : (respondOk b).cmd = b.cmd := rfl
@[simp] theorem respondOk_din (b : Block w) : (respondOk b).din = b.din := rfl
@[simp] theorem respondOk_host (b : Block w) : (respondOk b).host = b.host := rfl
@[simp] theorem respondOk_draws (b : Block w) : (respondOk b).draws = b.draws := rfl

@[simp] theorem writeFreq_mode (sym : Sym) (v : BitVec w) (b : Block w) :
    (writeFreq sym v b).mode = b.mode := rfl
@[simp] theorem writeFreq_rootLeaf (sym : Sym) (v : BitVec w) (b : Block w) :
    (writeFreq sym v b).rootLeaf = b.rootLeaf := rfl
@[simp] theorem writeFreq_err (sym : Sym) (v : BitVec w) (b : Block w) :
    (writeFreq sym v b).err = b.err := rfl
@[simp] theorem writeFreq_leafcnt (sym : Sym) (v : BitVec w) (b : Block w) :
    (writeFreq sym v b).leafcnt = b.leafcnt := rfl
@[simp] theorem writeFreq_nodecnt (sym : Sym) (v : BitVec w) (b : Block w) :
    (writeFreq sym v b).nodecnt = b.nodecnt := rfl
@[simp] theorem writeFreq_root (sym : Sym) (v : BitVec w) (b : Block w) :
    (writeFreq sym v b).root = b.root := rfl
@[simp] theorem writeFreq_total (sym : Sym) (v : BitVec w) (b : Block w) :
    (writeFreq sym v b).total = b.total := rfl
@[simp] theorem writeFreq_maxfreq (sym : Sym) (v : BitVec w) (b : Block w) :
    (writeFreq sym v b).maxfreq = b.maxfreq := rfl
@[simp] theorem writeFreq_fwbytes (sym : Sym) (v : BitVec w) (b : Block w) :
    (writeFreq sym v b).fwbytes = b.fwbytes := rfl
@[simp] theorem writeFreq_resp (sym : Sym) (v : BitVec w) (b : Block w) :
    (writeFreq sym v b).resp = b.resp := rfl
@[simp] theorem writeFreq_errcmd (sym : Sym) (v : BitVec w) (b : Block w) :
    (writeFreq sym v b).errcmd = b.errcmd := rfl
@[simp] theorem writeFreq_rTag (sym : Sym) (v : BitVec w) (b : Block w) :
    (writeFreq sym v b).rTag = b.rTag := rfl
@[simp] theorem writeFreq_rSym (sym : Sym) (v : BitVec w) (b : Block w) :
    (writeFreq sym v b).rSym = b.rSym := rfl
@[simp] theorem writeFreq_rFreq (sym : Sym) (v : BitVec w) (b : Block w) :
    (writeFreq sym v b).rFreq = b.rFreq := rfl
@[simp] theorem writeFreq_rLeft (sym : Sym) (v : BitVec w) (b : Block w) :
    (writeFreq sym v b).rLeft = b.rLeft := rfl
@[simp] theorem writeFreq_rRight (sym : Sym) (v : BitVec w) (b : Block w) :
    (writeFreq sym v b).rRight = b.rRight := rfl
@[simp] theorem writeFreq_rIdx (sym : Sym) (v : BitVec w) (b : Block w) :
    (writeFreq sym v b).rIdx = b.rIdx := rfl
@[simp] theorem writeFreq_freq (sym : Sym) (v : BitVec w) (b : Block w) :
    (writeFreq sym v b).freq = b.freq.set sym.toNat v (by have := sym.isLt; omega) := rfl
@[simp] theorem writeFreq_arena (sym : Sym) (v : BitVec w) (b : Block w) :
    (writeFreq sym v b).arena = b.arena := rfl
@[simp] theorem writeFreq_work (sym : Sym) (v : BitVec w) (b : Block w) :
    (writeFreq sym v b).work = b.work := rfl
@[simp] theorem writeFreq_nextIdx (sym : Sym) (v : BitVec w) (b : Block w) :
    (writeFreq sym v b).nextIdx = b.nextIdx := rfl
@[simp] theorem writeFreq_building (sym : Sym) (v : BitVec w) (b : Block w) :
    (writeFreq sym v b).building = b.building := rfl
@[simp] theorem writeFreq_cmd (sym : Sym) (v : BitVec w) (b : Block w) :
    (writeFreq sym v b).cmd = b.cmd := rfl
@[simp] theorem writeFreq_din (sym : Sym) (v : BitVec w) (b : Block w) :
    (writeFreq sym v b).din = b.din := rfl
@[simp] theorem writeFreq_host (sym : Sym) (v : BitVec w) (b : Block w) :
    (writeFreq sym v b).host = b.host := rfl
@[simp] theorem writeFreq_draws (sym : Sym) (v : BitVec w) (b : Block w) :
    (writeFreq sym v b).draws = b.draws := rfl

@[simp] theorem sample_mode (p : PortIn w) (b : Block w) : (sample p b).mode = b.mode := rfl
@[simp] theorem sample_rootLeaf (p : PortIn w) (b : Block w) : (sample p b).rootLeaf = b.rootLeaf := rfl
@[simp] theorem sample_err (p : PortIn w) (b : Block w) : (sample p b).err = b.err := rfl
@[simp] theorem sample_leafcnt (p : PortIn w) (b : Block w) : (sample p b).leafcnt = b.leafcnt := rfl
@[simp] theorem sample_nodecnt (p : PortIn w) (b : Block w) : (sample p b).nodecnt = b.nodecnt := rfl
@[simp] theorem sample_root (p : PortIn w) (b : Block w) : (sample p b).root = b.root := rfl
@[simp] theorem sample_total (p : PortIn w) (b : Block w) : (sample p b).total = b.total := rfl
@[simp] theorem sample_maxfreq (p : PortIn w) (b : Block w) : (sample p b).maxfreq = b.maxfreq := rfl
@[simp] theorem sample_fwbytes (p : PortIn w) (b : Block w) : (sample p b).fwbytes = b.fwbytes := rfl
@[simp] theorem sample_resp (p : PortIn w) (b : Block w) : (sample p b).resp = b.resp := rfl
@[simp] theorem sample_errcmd (p : PortIn w) (b : Block w) : (sample p b).errcmd = b.errcmd := rfl
@[simp] theorem sample_rTag (p : PortIn w) (b : Block w) : (sample p b).rTag = b.rTag := rfl
@[simp] theorem sample_rSym (p : PortIn w) (b : Block w) : (sample p b).rSym = b.rSym := rfl
@[simp] theorem sample_rFreq (p : PortIn w) (b : Block w) : (sample p b).rFreq = b.rFreq := rfl
@[simp] theorem sample_rLeft (p : PortIn w) (b : Block w) : (sample p b).rLeft = b.rLeft := rfl
@[simp] theorem sample_rRight (p : PortIn w) (b : Block w) : (sample p b).rRight = b.rRight := rfl
@[simp] theorem sample_rIdx (p : PortIn w) (b : Block w) : (sample p b).rIdx = b.rIdx := rfl
@[simp] theorem sample_freq (p : PortIn w) (b : Block w) : (sample p b).freq = b.freq := rfl
@[simp] theorem sample_arena (p : PortIn w) (b : Block w) : (sample p b).arena = b.arena := rfl
@[simp] theorem sample_work (p : PortIn w) (b : Block w) : (sample p b).work = b.work := rfl
@[simp] theorem sample_nextIdx (p : PortIn w) (b : Block w) : (sample p b).nextIdx = b.nextIdx := rfl
@[simp] theorem sample_building (p : PortIn w) (b : Block w) : (sample p b).building = b.building := rfl
@[simp] theorem sample_cmd (p : PortIn w) (b : Block w) : (sample p b).cmd = p.cmd := rfl
@[simp] theorem sample_din (p : PortIn w) (b : Block w) : (sample p b).din = p.din := rfl
@[simp] theorem sample_host (p : PortIn w) (b : Block w) : (sample p b).host = b.host := rfl
@[simp] theorem sample_draws (p : PortIn w) (b : Block w) : (sample p b).draws = b.draws := rfl

@[simp] theorem withHost_mode (rest : List (PortIn w)) (b : Block w) :
    (withHost rest b).mode = b.mode := rfl
@[simp] theorem withHost_rootLeaf (rest : List (PortIn w)) (b : Block w) :
    (withHost rest b).rootLeaf = b.rootLeaf := rfl
@[simp] theorem withHost_err (rest : List (PortIn w)) (b : Block w) : (withHost rest b).err = b.err := rfl
@[simp] theorem withHost_leafcnt (rest : List (PortIn w)) (b : Block w) :
    (withHost rest b).leafcnt = b.leafcnt := rfl
@[simp] theorem withHost_nodecnt (rest : List (PortIn w)) (b : Block w) :
    (withHost rest b).nodecnt = b.nodecnt := rfl
@[simp] theorem withHost_root (rest : List (PortIn w)) (b : Block w) :
    (withHost rest b).root = b.root := rfl
@[simp] theorem withHost_total (rest : List (PortIn w)) (b : Block w) :
    (withHost rest b).total = b.total := rfl
@[simp] theorem withHost_maxfreq (rest : List (PortIn w)) (b : Block w) :
    (withHost rest b).maxfreq = b.maxfreq := rfl
@[simp] theorem withHost_fwbytes (rest : List (PortIn w)) (b : Block w) :
    (withHost rest b).fwbytes = b.fwbytes := rfl
@[simp] theorem withHost_resp (rest : List (PortIn w)) (b : Block w) :
    (withHost rest b).resp = b.resp := rfl
@[simp] theorem withHost_errcmd (rest : List (PortIn w)) (b : Block w) :
    (withHost rest b).errcmd = b.errcmd := rfl
@[simp] theorem withHost_rTag (rest : List (PortIn w)) (b : Block w) :
    (withHost rest b).rTag = b.rTag := rfl
@[simp] theorem withHost_rSym (rest : List (PortIn w)) (b : Block w) :
    (withHost rest b).rSym = b.rSym := rfl
@[simp] theorem withHost_rFreq (rest : List (PortIn w)) (b : Block w) :
    (withHost rest b).rFreq = b.rFreq := rfl
@[simp] theorem withHost_rLeft (rest : List (PortIn w)) (b : Block w) :
    (withHost rest b).rLeft = b.rLeft := rfl
@[simp] theorem withHost_rRight (rest : List (PortIn w)) (b : Block w) :
    (withHost rest b).rRight = b.rRight := rfl
@[simp] theorem withHost_rIdx (rest : List (PortIn w)) (b : Block w) :
    (withHost rest b).rIdx = b.rIdx := rfl
@[simp] theorem withHost_freq (rest : List (PortIn w)) (b : Block w) :
    (withHost rest b).freq = b.freq := rfl
@[simp] theorem withHost_arena (rest : List (PortIn w)) (b : Block w) :
    (withHost rest b).arena = b.arena := rfl
@[simp] theorem withHost_work (rest : List (PortIn w)) (b : Block w) :
    (withHost rest b).work = b.work := rfl
@[simp] theorem withHost_nextIdx (rest : List (PortIn w)) (b : Block w) :
    (withHost rest b).nextIdx = b.nextIdx := rfl
@[simp] theorem withHost_building (rest : List (PortIn w)) (b : Block w) :
    (withHost rest b).building = b.building := rfl
@[simp] theorem withHost_cmd (rest : List (PortIn w)) (b : Block w) : (withHost rest b).cmd = b.cmd := rfl
@[simp] theorem withHost_din (rest : List (PortIn w)) (b : Block w) : (withHost rest b).din = b.din := rfl
@[simp] theorem withHost_host (rest : List (PortIn w)) (b : Block w) : (withHost rest b).host = rest := rfl
@[simp] theorem withHost_draws (rest : List (PortIn w)) (b : Block w) :
    (withHost rest b).draws = b.draws := rfl

@[simp] theorem withBuilding_mode (build : Option Nat) (b : Block w) :
    (withBuilding build b).mode = b.mode := rfl
@[simp] theorem withBuilding_rootLeaf (build : Option Nat) (b : Block w) :
    (withBuilding build b).rootLeaf = b.rootLeaf := rfl
@[simp] theorem withBuilding_err (build : Option Nat) (b : Block w) :
    (withBuilding build b).err = b.err := rfl
@[simp] theorem withBuilding_leafcnt (build : Option Nat) (b : Block w) :
    (withBuilding build b).leafcnt = b.leafcnt := rfl
@[simp] theorem withBuilding_nodecnt (build : Option Nat) (b : Block w) :
    (withBuilding build b).nodecnt = b.nodecnt := rfl
@[simp] theorem withBuilding_root (build : Option Nat) (b : Block w) :
    (withBuilding build b).root = b.root := rfl
@[simp] theorem withBuilding_total (build : Option Nat) (b : Block w) :
    (withBuilding build b).total = b.total := rfl
@[simp] theorem withBuilding_maxfreq (build : Option Nat) (b : Block w) :
    (withBuilding build b).maxfreq = b.maxfreq := rfl
@[simp] theorem withBuilding_fwbytes (build : Option Nat) (b : Block w) :
    (withBuilding build b).fwbytes = b.fwbytes := rfl
@[simp] theorem withBuilding_resp (build : Option Nat) (b : Block w) :
    (withBuilding build b).resp = b.resp := rfl
@[simp] theorem withBuilding_errcmd (build : Option Nat) (b : Block w) :
    (withBuilding build b).errcmd = b.errcmd := rfl
@[simp] theorem withBuilding_rTag (build : Option Nat) (b : Block w) :
    (withBuilding build b).rTag = b.rTag := rfl
@[simp] theorem withBuilding_rSym (build : Option Nat) (b : Block w) :
    (withBuilding build b).rSym = b.rSym := rfl
@[simp] theorem withBuilding_rFreq (build : Option Nat) (b : Block w) :
    (withBuilding build b).rFreq = b.rFreq := rfl
@[simp] theorem withBuilding_rLeft (build : Option Nat) (b : Block w) :
    (withBuilding build b).rLeft = b.rLeft := rfl
@[simp] theorem withBuilding_rRight (build : Option Nat) (b : Block w) :
    (withBuilding build b).rRight = b.rRight := rfl
@[simp] theorem withBuilding_rIdx (build : Option Nat) (b : Block w) :
    (withBuilding build b).rIdx = b.rIdx := rfl
@[simp] theorem withBuilding_freq (build : Option Nat) (b : Block w) :
    (withBuilding build b).freq = b.freq := rfl
@[simp] theorem withBuilding_arena (build : Option Nat) (b : Block w) :
    (withBuilding build b).arena = b.arena := rfl
@[simp] theorem withBuilding_work (build : Option Nat) (b : Block w) :
    (withBuilding build b).work = b.work := rfl
@[simp] theorem withBuilding_nextIdx (build : Option Nat) (b : Block w) :
    (withBuilding build b).nextIdx = b.nextIdx := rfl
@[simp] theorem withBuilding_building (build : Option Nat) (b : Block w) :
    (withBuilding build b).building = build := rfl
@[simp] theorem withBuilding_cmd (build : Option Nat) (b : Block w) :
    (withBuilding build b).cmd = b.cmd := rfl
@[simp] theorem withBuilding_din (build : Option Nat) (b : Block w) :
    (withBuilding build b).din = b.din := rfl
@[simp] theorem withBuilding_host (build : Option Nat) (b : Block w) :
    (withBuilding build b).host = b.host := rfl
@[simp] theorem withBuilding_draws (build : Option Nat) (b : Block w) :
    (withBuilding build b).draws = b.draws := rfl

@[simp] theorem setReadOut_mode (tag : Tag) (sym : Sym) (freq : BitVec w) (left right idx : Idx) (b : Block w) :
    (setReadOut tag sym freq left right idx b).mode = b.mode := rfl
@[simp] theorem setReadOut_rootLeaf (tag : Tag) (sym : Sym) (freq : BitVec w) (left right idx : Idx) (b : Block w) :
    (setReadOut tag sym freq left right idx b).rootLeaf = b.rootLeaf := rfl
@[simp] theorem setReadOut_err (tag : Tag) (sym : Sym) (freq : BitVec w) (left right idx : Idx) (b : Block w) :
    (setReadOut tag sym freq left right idx b).err = b.err := rfl
@[simp] theorem setReadOut_leafcnt (tag : Tag) (sym : Sym) (freq : BitVec w) (left right idx : Idx) (b : Block w) :
    (setReadOut tag sym freq left right idx b).leafcnt = b.leafcnt := rfl
@[simp] theorem setReadOut_nodecnt (tag : Tag) (sym : Sym) (freq : BitVec w) (left right idx : Idx) (b : Block w) :
    (setReadOut tag sym freq left right idx b).nodecnt = b.nodecnt := rfl
@[simp] theorem setReadOut_root (tag : Tag) (sym : Sym) (freq : BitVec w) (left right idx : Idx) (b : Block w) :
    (setReadOut tag sym freq left right idx b).root = b.root := rfl
@[simp] theorem setReadOut_total (tag : Tag) (sym : Sym) (freq : BitVec w) (left right idx : Idx) (b : Block w) :
    (setReadOut tag sym freq left right idx b).total = b.total := rfl
@[simp] theorem setReadOut_maxfreq (tag : Tag) (sym : Sym) (freq : BitVec w) (left right idx : Idx) (b : Block w) :
    (setReadOut tag sym freq left right idx b).maxfreq = b.maxfreq := rfl
@[simp] theorem setReadOut_fwbytes (tag : Tag) (sym : Sym) (freq : BitVec w) (left right idx : Idx) (b : Block w) :
    (setReadOut tag sym freq left right idx b).fwbytes = b.fwbytes := rfl
@[simp] theorem setReadOut_resp (tag : Tag) (sym : Sym) (freq : BitVec w) (left right idx : Idx) (b : Block w) :
    (setReadOut tag sym freq left right idx b).resp = b.resp := rfl
@[simp] theorem setReadOut_errcmd (tag : Tag) (sym : Sym) (freq : BitVec w) (left right idx : Idx) (b : Block w) :
    (setReadOut tag sym freq left right idx b).errcmd = b.errcmd := rfl
@[simp] theorem setReadOut_rTag (tag : Tag) (sym : Sym) (freq : BitVec w) (left right idx : Idx) (b : Block w) :
    (setReadOut tag sym freq left right idx b).rTag = tag := rfl
@[simp] theorem setReadOut_rSym (tag : Tag) (sym : Sym) (freq : BitVec w) (left right idx : Idx) (b : Block w) :
    (setReadOut tag sym freq left right idx b).rSym = sym := rfl
@[simp] theorem setReadOut_rFreq (tag : Tag) (sym : Sym) (freq : BitVec w) (left right idx : Idx) (b : Block w) :
    (setReadOut tag sym freq left right idx b).rFreq = freq := rfl
@[simp] theorem setReadOut_rLeft (tag : Tag) (sym : Sym) (freq : BitVec w) (left right idx : Idx) (b : Block w) :
    (setReadOut tag sym freq left right idx b).rLeft = left := rfl
@[simp] theorem setReadOut_rRight (tag : Tag) (sym : Sym) (freq : BitVec w) (left right idx : Idx) (b : Block w) :
    (setReadOut tag sym freq left right idx b).rRight = right := rfl
@[simp] theorem setReadOut_rIdx (tag : Tag) (sym : Sym) (freq : BitVec w) (left right idx : Idx) (b : Block w) :
    (setReadOut tag sym freq left right idx b).rIdx = idx := rfl
@[simp] theorem setReadOut_freq (tag : Tag) (sym : Sym) (freq : BitVec w) (left right idx : Idx) (b : Block w) :
    (setReadOut tag sym freq left right idx b).freq = b.freq := rfl
@[simp] theorem setReadOut_arena (tag : Tag) (sym : Sym) (freq : BitVec w) (left right idx : Idx) (b : Block w) :
    (setReadOut tag sym freq left right idx b).arena = b.arena := rfl
@[simp] theorem setReadOut_work (tag : Tag) (sym : Sym) (freq : BitVec w) (left right idx : Idx) (b : Block w) :
    (setReadOut tag sym freq left right idx b).work = b.work := rfl
@[simp] theorem setReadOut_nextIdx (tag : Tag) (sym : Sym) (freq : BitVec w) (left right idx : Idx) (b : Block w) :
    (setReadOut tag sym freq left right idx b).nextIdx = b.nextIdx := rfl
@[simp] theorem setReadOut_building (tag : Tag) (sym : Sym) (freq : BitVec w) (left right idx : Idx) (b : Block w) :
    (setReadOut tag sym freq left right idx b).building = b.building := rfl
@[simp] theorem setReadOut_cmd (tag : Tag) (sym : Sym) (freq : BitVec w) (left right idx : Idx) (b : Block w) :
    (setReadOut tag sym freq left right idx b).cmd = b.cmd := rfl
@[simp] theorem setReadOut_din (tag : Tag) (sym : Sym) (freq : BitVec w) (left right idx : Idx) (b : Block w) :
    (setReadOut tag sym freq left right idx b).din = b.din := rfl
@[simp] theorem setReadOut_host (tag : Tag) (sym : Sym) (freq : BitVec w) (left right idx : Idx) (b : Block w) :
    (setReadOut tag sym freq left right idx b).host = b.host := rfl
@[simp] theorem setReadOut_draws (tag : Tag) (sym : Sym) (freq : BitVec w) (left right idx : Idx) (b : Block w) :
    (setReadOut tag sym freq left right idx b).draws = b.draws := rfl

@[simp] theorem setSymFreq_mode (sym : Sym) (freq : BitVec w) (b : Block w) :
    (setSymFreq sym freq b).mode = b.mode := rfl
@[simp] theorem setSymFreq_rootLeaf (sym : Sym) (freq : BitVec w) (b : Block w) :
    (setSymFreq sym freq b).rootLeaf = b.rootLeaf := rfl
@[simp] theorem setSymFreq_err (sym : Sym) (freq : BitVec w) (b : Block w) :
    (setSymFreq sym freq b).err = b.err := rfl
@[simp] theorem setSymFreq_leafcnt (sym : Sym) (freq : BitVec w) (b : Block w) :
    (setSymFreq sym freq b).leafcnt = b.leafcnt := rfl
@[simp] theorem setSymFreq_nodecnt (sym : Sym) (freq : BitVec w) (b : Block w) :
    (setSymFreq sym freq b).nodecnt = b.nodecnt := rfl
@[simp] theorem setSymFreq_root (sym : Sym) (freq : BitVec w) (b : Block w) :
    (setSymFreq sym freq b).root = b.root := rfl
@[simp] theorem setSymFreq_total (sym : Sym) (freq : BitVec w) (b : Block w) :
    (setSymFreq sym freq b).total = b.total := rfl
@[simp] theorem setSymFreq_maxfreq (sym : Sym) (freq : BitVec w) (b : Block w) :
    (setSymFreq sym freq b).maxfreq = b.maxfreq := rfl
@[simp] theorem setSymFreq_fwbytes (sym : Sym) (freq : BitVec w) (b : Block w) :
    (setSymFreq sym freq b).fwbytes = b.fwbytes := rfl
@[simp] theorem setSymFreq_resp (sym : Sym) (freq : BitVec w) (b : Block w) :
    (setSymFreq sym freq b).resp = b.resp := rfl
@[simp] theorem setSymFreq_errcmd (sym : Sym) (freq : BitVec w) (b : Block w) :
    (setSymFreq sym freq b).errcmd = b.errcmd := rfl
@[simp] theorem setSymFreq_rTag (sym : Sym) (freq : BitVec w) (b : Block w) :
    (setSymFreq sym freq b).rTag = b.rTag := rfl
@[simp] theorem setSymFreq_rSym (sym : Sym) (freq : BitVec w) (b : Block w) :
    (setSymFreq sym freq b).rSym = sym := rfl
@[simp] theorem setSymFreq_rFreq (sym : Sym) (freq : BitVec w) (b : Block w) :
    (setSymFreq sym freq b).rFreq = freq := rfl
@[simp] theorem setSymFreq_rLeft (sym : Sym) (freq : BitVec w) (b : Block w) :
    (setSymFreq sym freq b).rLeft = b.rLeft := rfl
@[simp] theorem setSymFreq_rRight (sym : Sym) (freq : BitVec w) (b : Block w) :
    (setSymFreq sym freq b).rRight = b.rRight := rfl
@[simp] theorem setSymFreq_rIdx (sym : Sym) (freq : BitVec w) (b : Block w) :
    (setSymFreq sym freq b).rIdx = b.rIdx := rfl
@[simp] theorem setSymFreq_freq (sym : Sym) (freq : BitVec w) (b : Block w) :
    (setSymFreq sym freq b).freq = b.freq := rfl
@[simp] theorem setSymFreq_arena (sym : Sym) (freq : BitVec w) (b : Block w) :
    (setSymFreq sym freq b).arena = b.arena := rfl
@[simp] theorem setSymFreq_work (sym : Sym) (freq : BitVec w) (b : Block w) :
    (setSymFreq sym freq b).work = b.work := rfl
@[simp] theorem setSymFreq_nextIdx (sym : Sym) (freq : BitVec w) (b : Block w) :
    (setSymFreq sym freq b).nextIdx = b.nextIdx := rfl
@[simp] theorem setSymFreq_building (sym : Sym) (freq : BitVec w) (b : Block w) :
    (setSymFreq sym freq b).building = b.building := rfl
@[simp] theorem setSymFreq_cmd (sym : Sym) (freq : BitVec w) (b : Block w) :
    (setSymFreq sym freq b).cmd = b.cmd := rfl
@[simp] theorem setSymFreq_din (sym : Sym) (freq : BitVec w) (b : Block w) :
    (setSymFreq sym freq b).din = b.din := rfl
@[simp] theorem setSymFreq_host (sym : Sym) (freq : BitVec w) (b : Block w) :
    (setSymFreq sym freq b).host = b.host := rfl
@[simp] theorem setSymFreq_draws (sym : Sym) (freq : BitVec w) (b : Block w) :
    (setSymFreq sym freq b).draws = b.draws := rfl

@[simp] theorem setTree_mode (n : Nat) (F : Forest w) (root : Idx) (total maxfreq : BitVec w) (b : Block w) :
    (setTree n F root total maxfreq b).mode = .built := rfl
@[simp] theorem setTree_rootLeaf (n : Nat) (F : Forest w) (root : Idx) (total maxfreq : BitVec w) (b : Block w) :
    (setTree n F root total maxfreq b).rootLeaf = (n == 1) := rfl
@[simp] theorem setTree_err (n : Nat) (F : Forest w) (root : Idx) (total maxfreq : BitVec w) (b : Block w) :
    (setTree n F root total maxfreq b).err = b.err := rfl
@[simp] theorem setTree_leafcnt (n : Nat) (F : Forest w) (root : Idx) (total maxfreq : BitVec w) (b : Block w) :
    (setTree n F root total maxfreq b).leafcnt = BitVec.ofNat 9 n := rfl
@[simp] theorem setTree_nodecnt (n : Nat) (F : Forest w) (root : Idx) (total maxfreq : BitVec w) (b : Block w) :
    (setTree n F root total maxfreq b).nodecnt = allocIdx F.nodes := rfl
@[simp] theorem setTree_root (n : Nat) (F : Forest w) (root : Idx) (total maxfreq : BitVec w) (b : Block w) :
    (setTree n F root total maxfreq b).root = root := rfl
@[simp] theorem setTree_total (n : Nat) (F : Forest w) (root : Idx) (total maxfreq : BitVec w) (b : Block w) :
    (setTree n F root total maxfreq b).total = total := rfl
@[simp] theorem setTree_maxfreq (n : Nat) (F : Forest w) (root : Idx) (total maxfreq : BitVec w) (b : Block w) :
    (setTree n F root total maxfreq b).maxfreq = maxfreq := rfl
@[simp] theorem setTree_fwbytes (n : Nat) (F : Forest w) (root : Idx) (total maxfreq : BitVec w) (b : Block w) :
    (setTree n F root total maxfreq b).fwbytes = BitVec.ofNat 8 (fieldBytes maxfreq.toNat) := rfl
@[simp] theorem setTree_resp (n : Nat) (F : Forest w) (root : Idx) (total maxfreq : BitVec w) (b : Block w) :
    (setTree n F root total maxfreq b).resp = b.resp := rfl
@[simp] theorem setTree_errcmd (n : Nat) (F : Forest w) (root : Idx) (total maxfreq : BitVec w) (b : Block w) :
    (setTree n F root total maxfreq b).errcmd = b.errcmd := rfl
@[simp] theorem setTree_rTag (n : Nat) (F : Forest w) (root : Idx) (total maxfreq : BitVec w) (b : Block w) :
    (setTree n F root total maxfreq b).rTag = b.rTag := rfl
@[simp] theorem setTree_rSym (n : Nat) (F : Forest w) (root : Idx) (total maxfreq : BitVec w) (b : Block w) :
    (setTree n F root total maxfreq b).rSym = b.rSym := rfl
@[simp] theorem setTree_rFreq (n : Nat) (F : Forest w) (root : Idx) (total maxfreq : BitVec w) (b : Block w) :
    (setTree n F root total maxfreq b).rFreq = b.rFreq := rfl
@[simp] theorem setTree_rLeft (n : Nat) (F : Forest w) (root : Idx) (total maxfreq : BitVec w) (b : Block w) :
    (setTree n F root total maxfreq b).rLeft = b.rLeft := rfl
@[simp] theorem setTree_rRight (n : Nat) (F : Forest w) (root : Idx) (total maxfreq : BitVec w) (b : Block w) :
    (setTree n F root total maxfreq b).rRight = b.rRight := rfl
@[simp] theorem setTree_rIdx (n : Nat) (F : Forest w) (root : Idx) (total maxfreq : BitVec w) (b : Block w) :
    (setTree n F root total maxfreq b).rIdx = b.rIdx := rfl
@[simp] theorem setTree_freq (n : Nat) (F : Forest w) (root : Idx) (total maxfreq : BitVec w) (b : Block w) :
    (setTree n F root total maxfreq b).freq = b.freq := rfl
@[simp] theorem setTree_arena (n : Nat) (F : Forest w) (root : Idx) (total maxfreq : BitVec w) (b : Block w) :
    (setTree n F root total maxfreq b).arena = F.nodes := rfl
@[simp] theorem setTree_work (n : Nat) (F : Forest w) (root : Idx) (total maxfreq : BitVec w) (b : Block w) :
    (setTree n F root total maxfreq b).work = F.work := rfl
@[simp] theorem setTree_nextIdx (n : Nat) (F : Forest w) (root : Idx) (total maxfreq : BitVec w) (b : Block w) :
    (setTree n F root total maxfreq b).nextIdx =
      Config.freeBits 9 (.allocNextBuilt b.draws) := rfl
@[simp] theorem setTree_building (n : Nat) (F : Forest w) (root : Idx) (total maxfreq : BitVec w) (b : Block w) :
    (setTree n F root total maxfreq b).building = b.building := rfl
@[simp] theorem setTree_cmd (n : Nat) (F : Forest w) (root : Idx) (total maxfreq : BitVec w) (b : Block w) :
    (setTree n F root total maxfreq b).cmd = b.cmd := rfl
@[simp] theorem setTree_din (n : Nat) (F : Forest w) (root : Idx) (total maxfreq : BitVec w) (b : Block w) :
    (setTree n F root total maxfreq b).din = b.din := rfl
@[simp] theorem setTree_host (n : Nat) (F : Forest w) (root : Idx) (total maxfreq : BitVec w) (b : Block w) :
    (setTree n F root total maxfreq b).host = b.host := rfl
@[simp] theorem setTree_draws (n : Nat) (F : Forest w) (root : Idx) (total maxfreq : BitVec w) (b : Block w) :
    (setTree n F root total maxfreq b).draws = b.draws := rfl

@[simp] theorem beginBuild_mode (b : Block w) : (beginBuild b).mode = b.mode := rfl
@[simp] theorem beginBuild_rootLeaf (b : Block w) : (beginBuild b).rootLeaf = b.rootLeaf := rfl
@[simp] theorem beginBuild_err (b : Block w) : (beginBuild b).err = b.err := rfl
@[simp] theorem beginBuild_leafcnt (b : Block w) : (beginBuild b).leafcnt = b.leafcnt := rfl
@[simp] theorem beginBuild_nodecnt (b : Block w) : (beginBuild b).nodecnt = b.nodecnt := rfl
@[simp] theorem beginBuild_root (b : Block w) : (beginBuild b).root = b.root := rfl
@[simp] theorem beginBuild_total (b : Block w) : (beginBuild b).total = b.total := rfl
@[simp] theorem beginBuild_maxfreq (b : Block w) : (beginBuild b).maxfreq = b.maxfreq := rfl
@[simp] theorem beginBuild_fwbytes (b : Block w) : (beginBuild b).fwbytes = b.fwbytes := rfl
@[simp] theorem beginBuild_resp (b : Block w) : (beginBuild b).resp = b.resp := rfl
@[simp] theorem beginBuild_errcmd (b : Block w) : (beginBuild b).errcmd = b.errcmd := rfl
@[simp] theorem beginBuild_rTag (b : Block w) : (beginBuild b).rTag = b.rTag := rfl
@[simp] theorem beginBuild_rSym (b : Block w) : (beginBuild b).rSym = b.rSym := rfl
@[simp] theorem beginBuild_rFreq (b : Block w) : (beginBuild b).rFreq = b.rFreq := rfl
@[simp] theorem beginBuild_rLeft (b : Block w) : (beginBuild b).rLeft = b.rLeft := rfl
@[simp] theorem beginBuild_rRight (b : Block w) : (beginBuild b).rRight = b.rRight := rfl
@[simp] theorem beginBuild_rIdx (b : Block w) : (beginBuild b).rIdx = b.rIdx := rfl
@[simp] theorem beginBuild_freq (b : Block w) : (beginBuild b).freq = b.freq := rfl
@[simp] theorem beginBuild_arena (b : Block w) : (beginBuild b).arena = b.arena := rfl
@[simp] theorem beginBuild_work (b : Block w) : (beginBuild b).work = b.work := rfl
@[simp] theorem beginBuild_nextIdx (b : Block w) : (beginBuild b).nextIdx = b.nextIdx := rfl
@[simp] theorem beginBuild_building (b : Block w) :
    (beginBuild b).building = some (buildLatency b.freq) := rfl
@[simp] theorem beginBuild_cmd (b : Block w) : (beginBuild b).cmd = b.cmd := rfl
@[simp] theorem beginBuild_din (b : Block w) : (beginBuild b).din = b.din := rfl
@[simp] theorem beginBuild_host (b : Block w) : (beginBuild b).host = b.host := rfl
@[simp] theorem beginBuild_draws (b : Block w) : (beginBuild b).draws = b.draws + 1 := rfl

@[simp] theorem emptied_mode (b : Block w) : (emptied b).mode = .idle := rfl
@[simp] theorem emptied_rootLeaf (b : Block w) : (emptied b).rootLeaf = false := rfl
@[simp] theorem emptied_err (b : Block w) : (emptied b).err = .ok := rfl
@[simp] theorem emptied_leafcnt (b : Block w) : (emptied b).leafcnt = 0#9 := rfl
@[simp] theorem emptied_nodecnt (b : Block w) : (emptied b).nodecnt = 0#9 := rfl
@[simp] theorem emptied_root (b : Block w) : (emptied b).root = nilIdx := rfl
@[simp] theorem emptied_total (b : Block w) : (emptied b).total = 0#w := rfl
@[simp] theorem emptied_maxfreq (b : Block w) : (emptied b).maxfreq = 0#w := rfl
@[simp] theorem emptied_fwbytes (b : Block w) : (emptied b).fwbytes = 0#8 := rfl
@[simp] theorem emptied_resp (b : Block w) : (emptied b).resp = .ok := rfl
@[simp] theorem emptied_errcmd (b : Block w) : (emptied b).errcmd = 0x0000#16 := rfl
@[simp] theorem emptied_rTag (b : Block w) : (emptied b).rTag = .leaf := rfl
@[simp] theorem emptied_rSym (b : Block w) : (emptied b).rSym = 0#8 := rfl
@[simp] theorem emptied_rFreq (b : Block w) : (emptied b).rFreq = 0#w := rfl
@[simp] theorem emptied_rLeft (b : Block w) : (emptied b).rLeft = nilIdx := rfl
@[simp] theorem emptied_rRight (b : Block w) : (emptied b).rRight = nilIdx := rfl
@[simp] theorem emptied_rIdx (b : Block w) : (emptied b).rIdx = nilIdx := rfl
@[simp] theorem emptied_freq (b : Block w) : (emptied b).freq = Vector.replicate 256 0#w := rfl
@[simp] theorem emptied_arena (b : Block w) : (emptied b).arena = [] := rfl
@[simp] theorem emptied_work (b : Block w) : (emptied b).work = freeWork b.draws := rfl
@[simp] theorem emptied_nextIdx (b : Block w) :
    (emptied b).nextIdx = Config.freeBits 9 (.allocNext b.draws) := rfl
@[simp] theorem emptied_building (b : Block w) : (emptied b).building = b.building := rfl
@[simp] theorem emptied_cmd (b : Block w) : (emptied b).cmd = b.cmd := rfl
@[simp] theorem emptied_din (b : Block w) : (emptied b).din = b.din := rfl
@[simp] theorem emptied_host (b : Block w) : (emptied b).host = b.host := rfl
@[simp] theorem emptied_draws (b : Block w) : (emptied b).draws = b.draws + 1 := rfl

@[simp] theorem resetBlock_mode (b : Block w) : (resetBlock b).mode = .idle := rfl
@[simp] theorem resetBlock_rootLeaf (b : Block w) : (resetBlock b).rootLeaf = false := rfl
@[simp] theorem resetBlock_err (b : Block w) : (resetBlock b).err = .ok := rfl
@[simp] theorem resetBlock_leafcnt (b : Block w) : (resetBlock b).leafcnt = 0#9 := rfl
@[simp] theorem resetBlock_nodecnt (b : Block w) : (resetBlock b).nodecnt = 0#9 := rfl
@[simp] theorem resetBlock_root (b : Block w) : (resetBlock b).root = nilIdx := rfl
@[simp] theorem resetBlock_total (b : Block w) : (resetBlock b).total = 0#w := rfl
@[simp] theorem resetBlock_maxfreq (b : Block w) : (resetBlock b).maxfreq = 0#w := rfl
@[simp] theorem resetBlock_fwbytes (b : Block w) : (resetBlock b).fwbytes = 0#8 := rfl
@[simp] theorem resetBlock_resp (b : Block w) : (resetBlock b).resp = .ok := rfl
@[simp] theorem resetBlock_errcmd (b : Block w) : (resetBlock b).errcmd = 0x0000#16 := rfl
@[simp] theorem resetBlock_rTag (b : Block w) : (resetBlock b).rTag = .leaf := rfl
@[simp] theorem resetBlock_rSym (b : Block w) : (resetBlock b).rSym = 0#8 := rfl
@[simp] theorem resetBlock_rFreq (b : Block w) : (resetBlock b).rFreq = 0#w := rfl
@[simp] theorem resetBlock_rLeft (b : Block w) : (resetBlock b).rLeft = nilIdx := rfl
@[simp] theorem resetBlock_rRight (b : Block w) : (resetBlock b).rRight = nilIdx := rfl
@[simp] theorem resetBlock_rIdx (b : Block w) : (resetBlock b).rIdx = nilIdx := rfl
@[simp] theorem resetBlock_freq (b : Block w) : (resetBlock b).freq = Vector.replicate 256 0#w := rfl
@[simp] theorem resetBlock_arena (b : Block w) : (resetBlock b).arena = [] := rfl
@[simp] theorem resetBlock_work (b : Block w) : (resetBlock b).work = freeWork b.draws := rfl
@[simp] theorem resetBlock_nextIdx (b : Block w) :
    (resetBlock b).nextIdx = Config.freeBits 9 (.allocNext b.draws) := rfl
@[simp] theorem resetBlock_building (b : Block w) : (resetBlock b).building = none := rfl
@[simp] theorem resetBlock_cmd (b : Block w) : (resetBlock b).cmd = 0x0000#16 := rfl
@[simp] theorem resetBlock_din (b : Block w) : (resetBlock b).din = 0#w := rfl
@[simp] theorem resetBlock_host (b : Block w) : (resetBlock b).host = b.host := rfl
@[simp] theorem resetBlock_draws (b : Block w) : (resetBlock b).draws = b.draws + 1 := rfl

@[simp] theorem withBlock_cfg (s : State) (b : Block s.cfg.freqBits) : (s.withBlock b).cfg = s.cfg := rfl
@[simp] theorem withBlock_blk (s : State) (b : Block s.cfg.freqBits) : (s.withBlock b).blk = b := rfl
@[simp] theorem withBlock_mk (c : Config) (b b' : Block c.freqBits) :
    (State.mk c b).withBlock b' = ⟨c, b'⟩ := rfl
@[simp] theorem resetOf_cfg (c : Config) : (State.resetOf c).cfg = c := rfl
@[simp] theorem resetOf_blk (c : Config) : (State.resetOf c).blk = Block.resetValue c.freqBits := rfl

end Sys2Proof.Machine
end

