-- ==== Sys2Proof/Laws/Ops.lean ====
section
/-! SUPPORT. One lemma per shared operation, saying once all it can do. -/

namespace Sys2Proof.Machine

variable {w : Nat}

/-! The state check and the illegal word. -/

@[simp] theorem gate_executes (b body : Block w) : gate .executes b body = body := rfl
@[simp] theorem gate_badState (b body : Block w) : gate .badState b body = raiseError .badState b := rfl
@[simp] theorem gate_ignored (b body : Block w) : gate .ignored b body = ignored b := rfl

theorem gate_cases (v : Legality) (b body : Block w) :
    (v = .executes ∧ gate v b body = body) ∨
      (v = .badState ∧ gate v b body = raiseError .badState b) ∨
      (v = .ignored ∧ gate v b body = ignored b) := by
  cases v <;> simp

/-- Only CLEAR is not ignored in ERROR (R85). -/
theorem legality_error {i : Instr} (h : i ≠ .clear) : legality i .error = .ignored := by
  cases i <;> simp_all [legality]

/-- A command is ignored in ERROR only (R85). -/
theorem legality_eq_ignored {i : Instr} {m : Mode} (h : legality i m = .ignored) : m = .error := by
  cases i <;> cases m <;> simp_all [legality]

theorem illegalWord_error {b : Block w} (h : b.mode = .error) : illegalWord b = ignored b := by
  simp [illegalWord, h]

theorem illegalWord_raises {b : Block w} (h : b.mode ≠ .error) :
    illegalWord b = raiseError .illegalCmd b := by
  unfold illegalWord; cases hm : b.mode <;> simp_all

/-! The own checks of each command. -/

theorem loadPairBody_cases (sym : Sym) (b : Block w) :
    (b.din = 0#w ∧ loadPairBody sym b = raiseError .zeroFreq b) ∨
      (b.din ≠ 0#w ∧ b.freqAt sym ≠ 0#w ∧ loadPairBody sym b = raiseError .dupSymbol b) ∨
      (b.din ≠ 0#w ∧ b.freqAt sym = 0#w ∧ loadPairBody sym b = respondOk (writeFreq sym b.din b)) := by
  by_cases h : b.din = 0#w <;> by_cases h' : b.freqAt sym = 0#w <;> simp [loadPairBody, h, h']

theorem buildBody_cases (b : Block w) :
    (presentSyms b.freq = [] ∧ buildBody b = raiseError .emptyTable b) ∨
      (presentSyms b.freq ≠ [] ∧ 2 ^ w - 1 < tableSum b.freq ∧
        buildBody b = raiseError .freqOverflow b) ∨
      (presentSyms b.freq ≠ [] ∧ tableSum b.freq ≤ 2 ^ w - 1 ∧ buildBody b = buildWrites b) := by
  by_cases h : presentSyms b.freq = [] <;> by_cases h' : 2 ^ w - 1 < tableSum b.freq
  · exact .inl ⟨h, by simp [buildBody, h]⟩
  · exact .inl ⟨h, by simp [buildBody, h]⟩
  · exact .inr (.inl ⟨h, h', by simp only [buildBody, if_neg h, if_pos h']⟩)
  · exact .inr (.inr ⟨h, by omega, by simp only [buildBody, if_neg h, if_neg h']⟩)

/-- A BUILD in IDLE of a table that passes the input checks (R56, R57). -/
theorem buildBlock_builds {b : Block w} (hm : b.mode = .idle) (hne : presentSyms b.freq ≠ [])
    (hs : tableSum b.freq ≤ 2 ^ w - 1) : buildBlock b = buildWrites b := by
  simp only [buildBlock, hm, legality, gate_executes, buildBody, if_neg hne, if_neg (Nat.not_lt.2 hs)]

theorem readNodeBody_fails {idx : Idx} {b : Block w} (h : b.nodecnt.toNat ≤ idx.toNat) :
    readNodeBody idx b = raiseError .badIndex b := by simp [readNodeBody, h]

theorem readLeafBody_fails {k : Idx} {b : Block w} (h : b.leafcnt.toNat ≤ k.toNat) :
    readLeafBody k b = raiseError .badIndex b := by simp [readLeafBody, h]

/-! The table. -/

theorem tableAt_set_self (t : Vector (BitVec w) 256) (sym : Sym) (v : BitVec w)
    (h : sym.toNat < 256) : tableAt (t.set sym.toNat v h) sym = v := by
  simp [tableAt]

theorem tableAt_set_ne (t : Vector (BitVec w) 256) {sym s : Sym} (hne : s ≠ sym) (v : BitVec w)
    (h : sym.toNat < 256) : tableAt (t.set sym.toNat v h) s = tableAt t s := by
  have : sym.toNat ≠ s.toNat := fun e => hne (BitVec.eq_of_toNat_eq e.symm)
  simp [tableAt, this]

@[simp] theorem tableAt_replicate (v : BitVec w) (s : Sym) :
    tableAt (Vector.replicate 256 v) s = v := by simp [tableAt]

@[simp] theorem freqAt_writeFreq_self (sym : Sym) (v : BitVec w) (b : Block w) :
    (writeFreq sym v b).freqAt sym = v :=
  tableAt_set_self _ _ _ (by have := sym.isLt; omega)

theorem freqAt_writeFreq_ne {sym s : Sym} (h : s ≠ sym) (v : BitVec w) (b : Block w) :
    (writeFreq sym v b).freqAt s = b.freqAt s :=
  tableAt_set_ne _ h _ (by have := sym.isLt; omega)

theorem mem_allSyms (s : Sym) : s ∈ allSyms := by
  refine List.mem_map.2 ⟨s.toNat, ?_, by simp⟩
  have := s.isLt
  simp only [List.mem_range]; omega

theorem allSyms_nodup : allSyms.Nodup := by
  refine List.Nodup.map_on (fun i hi j hj h => ?_) List.nodup_range
  have := congrArg BitVec.toNat h
  simp only [nsym, List.mem_range] at hi hj
  simp only [BitVec.toNat_ofNat] at this
  omega

theorem mem_presentSyms {t : Vector (BitVec w) 256} {s : Sym} :
    s ∈ presentSyms t ↔ tableAt t s ≠ 0#w := by
  simp [presentSyms, mem_allSyms]

theorem presentSyms_nodup (t : Vector (BitVec w) 256) : (presentSyms t).Nodup :=
  allSyms_nodup.filter _

theorem presentSyms_length_le (t : Vector (BitVec w) 256) : (presentSyms t).length ≤ 256 :=
  (List.length_filter_le _ _).trans (by simp [allSyms])

/-! The arena. -/

theorem nodeIn_of_getElem? {d : Nat} {nodes : List (Node w)} {i : Idx} {n : Node w}
    (h : nodes[i.toNat]? = some n) : nodeIn d nodes i = n := by simp [nodeIn, h]

/-- A written record does not depend on the free values. -/
theorem nodeIn_draw {nodes : List (Node w)} {i : Idx} (h : i.toNat < nodes.length) (d d' : Nat) :
    nodeIn d nodes i = nodeIn d' nodes i := by
  simp [nodeIn, List.getElem?_eq_getElem h]

/-- Appending a record leaves the written ones alone. -/
theorem nodeIn_append {nodes : List (Node w)} {i : Idx} (h : i.toNat < nodes.length) (d : Nat)
    (more : List (Node w)) : nodeIn d (nodes ++ more) i = nodeIn d nodes i := by
  simp [nodeIn, List.getElem?_append_left h]

/-! The seeding and the merge loop. -/

theorem seedInsert_perm (t : Vector (BitVec w) 256) (s : Sym) (l : List Sym) :
    (seedInsert t s l).Perm (s :: l) := by
  induction l with
  | nil => rfl
  | cons x rest ih =>
    unfold seedInsert
    split
    · rfl
    · exact (ih.cons x).trans (List.Perm.swap s x rest)

theorem insertAt_perm (work : List Idx) (p : Nat) (v : Idx) :
    (insertAt work p v).Perm (v :: work) := by
  have h := List.perm_middle (a := v) (l₁ := work.take p) (l₂ := work.drop p)
  rwa [List.take_append_drop] at h

/-- A merge step pops two elements, writes one record, and inserts its index (R62 to R65). -/
theorem mergeStep_eq {d : Nat} {F : Forest w} {a b : Idx} {front : List Idx}
    (h : F.work = front ++ [b, a]) :
    mergeStep d F =
      ⟨F.nodes ++ [mergedNode d F.nodes a b],
        insertAt front
          (insertPos d F.nodes front (freqOf d F.nodes a + freqOf d F.nodes b))
          (allocIdx F.nodes)⟩ := by
  simp [mergeStep, h]

/-- Where more than one element is left, the working sequence ends in a pair. -/
theorem exists_last_two {work : List Idx} (h : 1 < work.length) :
    ∃ front b a, work = front ++ [b, a] := by
  obtain ⟨l, a, rfl⟩ := List.eq_nil_or_concat' work |>.resolve_left (by rintro rfl; simp at h)
  obtain ⟨front, b, rfl⟩ := List.eq_nil_or_concat' l |>.resolve_left (by rintro rfl; simp at h)
  exact ⟨front, b, a, by simp⟩

/-- A merge step removes one element and writes one record (R66). -/
theorem mergeStep_lengths {d : Nat} {F : Forest w} (h : 1 < F.work.length) :
    (mergeStep d F).work.length + 1 = F.work.length ∧
      (mergeStep d F).nodes.length = F.nodes.length + 1 := by
  obtain ⟨front, b, a, hw⟩ := exists_last_two h
  rw [mergeStep_eq hw, hw]
  simp [(insertAt_perm _ _ _).length_eq]

end Sys2Proof.Machine
end

