-- ==== Sys2Proof/Laws/Exec.lean ====
section
/-! SUPPORT. Every outcome is a next state: what a command, a step and a clock edge do, as functions on the
block. A proof about `exec`, `step` or `clockEdge` rewrites with these and never unfolds them. -/

namespace Sys2Proof.Machine

variable {w : Nat}

/-- Two next states of one configuration are equal exactly when their blocks are. -/
@[simp] theorem next_inj {c : Config} {b t : Block c.freqBits} :
    ((.next ⟨c, b⟩ : Host.Outcome State Fault Refusal) = .next ⟨c, t⟩) ↔ b = t := by simp

/-- What a command does to the block. -/
def effect (i : Instr) (b : Block w) : Block w :=
  match i with
  | .clear => clearBlock b
  | .setFreq sym => setFreqBlock sym b
  | .loadPair sym => loadPairBlock sym b
  | .build => buildBlock b
  | .readNode idx => readNodeBlock idx b
  | .readLeaf k => readLeafBlock k b
  | .readFreq sym => readFreqBlock sym b

theorem exec_mk (i : Instr) (c : Config) (b : Block c.freqBits) :
    exec i ⟨c, b⟩ = .next ⟨c, effect i b⟩ := by cases i <;> rfl

/-- What the sampled command does to the block. -/
def sampledEffect (b : Block w) : Block w :=
  match decode b.cmd with
  | .instr i => effect i b
  | .illegal _ => illegalWord b

theorem runSampled_mk (c : Config) (b : Block c.freqBits) :
    runSampled ⟨c, b⟩ = .next ⟨c, sampledEffect b⟩ := by
  unfold runSampled sampledEffect
  cases h : decode b.cmd <;> simp [exec_mk]

/-- What one transaction does to the block. -/
def stepBlock (b : Block w) : Block w :=
  match b.host with
  | [] => if b.busy then effect .build (withBuilding none b) else b
  | p :: rest =>
    if p.rst then withHost rest (resetBlock b)
    else if b.busy then effect .build (withBuilding none b)
    else if p.cmdValid then sampledEffect (sample p (withHost rest b))
    else withHost rest b

theorem step_mk (c : Config) (b : Block c.freqBits) : step ⟨c, b⟩ = .next ⟨c, stepBlock b⟩ := by
  unfold step transact stepBlock
  cases h : b.host with
  | nil => by_cases hb : b.busy = true <;> simp [hb, completeBuild, exec_mk]
  | cons p rest =>
    by_cases hr : p.rst = true <;> by_cases hb : b.busy = true <;> by_cases hv : p.cmdValid = true <;>
      simp [takeInput, completeBuild, accept, exec_mk, runSampled_mk, hr, hb, hv]

/-- What one edge at which the host drives `p` does to the block. -/
def edgeBlock (p : PortIn w) (b : Block w) : Block w :=
  if p.rst then resetBlock b
  else match b.building with
    | some left =>
      if left ≤ 1 then effect .build (withBuilding none b)
      else withBuilding (some (left - 1)) b
    | none =>
      if p.cmdValid then
        if startsBuild (sample p b) then beginBuild (sample p b) else sampledEffect (sample p b)
      else b

theorem edgeWith_mk (c : Config) (b : Block c.freqBits) (p : PortIn c.freqBits) :
    edgeWith ⟨c, b⟩ p = .next ⟨c, edgeBlock p b⟩ := by
  unfold edgeWith edgeBlock
  by_cases hr : p.rst = true
  · simp [hr]
  · cases hb : b.building with
    | some left =>
      by_cases hl : left ≤ 1 <;> simp [hr, hl, edgeBusy, completeBuild, exec_mk]
    | none =>
      by_cases hv : p.cmdValid = true
      · by_cases hs : startsBuild (sample p b) = true <;>
          simp [hr, hv, hs, edgeAccepts, runSampled_mk]
      · simp [hr, hv]

/-- What one edge does to the block. -/
def clockBlock (b : Block w) : Block w :=
  match b.host with
  | p :: rest => edgeBlock p (withHost rest b)
  | [] => edgeBlock ⟨false, false, 0x0000#16, 0⟩ b

theorem clockEdge_mk (c : Config) (b : Block c.freqBits) :
    clockEdge ⟨c, b⟩ = .next ⟨c, clockBlock b⟩ := by
  unfold clockEdge clockBlock
  cases h : b.host <;> simp [edgeWith_mk]

/-- A machine all of whose steps go on runs as its step iterates. -/
theorem run_eq_iterate (M : Host.Core) {β : Type} (mk : β → M.State) (f : β → β)
    (h : ∀ b, M.step (mk b) = .next (mk (f b))) (k : Nat) (b : β) :
    M.run k (mk b) = .next (mk (f^[k] b)) := by
  induction k generalizing b with
  | zero => rfl
  | succ k ih => simp only [Host.Core.run, h, ih, Function.iterate_succ_apply]

/-- Running the machine for `k` steps (the host's `Core.run`). -/
theorem run_core_mk (k : Nat) (c : Config) (b : Block c.freqBits) :
    Sys2Proof.core.run k (⟨c, b⟩ : State) = .next (⟨c, stepBlock^[k] b⟩ : State) :=
  run_eq_iterate Sys2Proof.core (State.mk c) stepBlock (step_mk c) k b

/-- Running the clock for `k` edges. -/
theorem run_clock_mk (k : Nat) (c : Config) (b : Block c.freqBits) :
    clockCore.run k (⟨c, b⟩ : State) = .next (⟨c, clockBlock^[k] b⟩ : State) :=
  run_eq_iterate clockCore (State.mk c) clockBlock (clockEdge_mk c) k b

end Sys2Proof.Machine
end

