-- ==== Sys2Proof/Laws/PerInstr.lean ====
section
/-! SUPPORT. Statements about every instruction as it is written, one lemma per constructor. -/

namespace Sys2Proof.Laws.RowOfEncoding

open Sys2Proof

/-- The word of an instruction matches the row of its own mnemonic (R46). -/
def Statement (i : Instr) : Prop :=
  ∃ r ∈ opcodeRows, r.mnemonic = mnemonic i ∧ r.hits (encode i) = true

theorem clear : Statement .clear :=
  ⟨⟨"CLEAR", 0x0000#16, 0xFFFF#16⟩, by simp [opcodeRows], rfl, by decide⟩

theorem setFreq (sym : Sym) : Statement (.setFreq sym) := by
  refine ⟨⟨"SET_FREQ", 0x1000#16, 0xFF00#16⟩, by simp [opcodeRows], rfl, ?_⟩
  revert sym; decide +kernel

theorem loadPair (sym : Sym) : Statement (.loadPair sym) := by
  refine ⟨⟨"LOAD_PAIR", 0x2000#16, 0xFF00#16⟩, by simp [opcodeRows], rfl, ?_⟩
  revert sym; decide +kernel

theorem build : Statement .build :=
  ⟨⟨"BUILD", 0x3000#16, 0xFFFF#16⟩, by simp [opcodeRows], rfl, by decide⟩

theorem readNode (idx : Idx) : Statement (.readNode idx) := by
  refine ⟨⟨"READ_NODE", 0x4000#16, 0xFE00#16⟩, by simp [opcodeRows], rfl, ?_⟩
  revert idx; decide +kernel

theorem readLeaf (k : Idx) : Statement (.readLeaf k) := by
  refine ⟨⟨"READ_LEAF", 0x5000#16, 0xFE00#16⟩, by simp [opcodeRows], rfl, ?_⟩
  revert k; decide +kernel

theorem readFreq (sym : Sym) : Statement (.readFreq sym) := by
  refine ⟨⟨"READ_FREQ", 0x6000#16, 0xFF00#16⟩, by simp [opcodeRows], rfl, ?_⟩
  revert sym; decide +kernel

end Sys2Proof.Laws.RowOfEncoding
end

