-- ==== Sys2Proof/Tests/Slice0.lean ====
section
/-! SUPPORT. Tests, with expected values from spec/95_test_vectors.md and from the encoding patterns of R46,
and a witness for the hypotheses of every statement. -/

-- One proof after the other: each thread that waits its turn holds its stack.
set_option Elab.async false

namespace Sys2Proof.Tests

open Sys2Proof Sys2Proof.Machine

/-! ## Helpers -/

/-- The configuration of V-B16 and V-B17: FREQ_BITS = 8. -/
abbrev c8 : Config := ⟨8, by decide, by decide⟩

/-- An IDLE block whose table holds these (symbol, frequency) pairs. -/
def tableBlock (w : Nat) (pairs : List (Nat × Nat)) : Block w :=
  { Block.resetValue w with
    freq := pairs.foldl (fun v p => v.setIfInBounds p.1 (BitVec.ofNat w p.2)) (Vector.replicate 256 0#w) }

/-- The block with this word and value sampled from the port. -/
def sampled {w : Nat} (word : CmdWord) (din : Nat) (b : Block w) : Block w :=
  { b with cmd := word, din := BitVec.ofNat w din }

/-- The block after an outcome; the reset block where there is no next state of this configuration. -/
def after (c : Config) (o : Host.Outcome State Fault Refusal) : Block c.freqBits :=
  match o with
  | .next s => if h : s.cfg = c then h ▸ s.blk else Block.resetValue _
  | .fault _ | .refused _ => Block.resetValue _

/-- Running one command at FREQ_BITS = 64. -/
def run64 (i : Instr) (b : Block 64) : Block 64 := after Config.reference (exec i ⟨Config.reference, b⟩)

/-- Accepting one command word at FREQ_BITS = 64. -/
def accept64 (word : CmdWord) (din : Nat) (b : Block 64) : Block 64 :=
  after Config.reference (step ⟨Config.reference, { b with host := [offer word (BitVec.ofNat 64 din)] }⟩)

/-- The table of V-S1. -/
def scenario1 : Block 64 := tableBlock 64 [(0x20, 1), (0x61, 3), (0x62, 1), (0x74, 2), (0x78, 1)]

/-- The block of V-B1: the tree of V-S1. -/
def tree1 : Block 64 :=
  { scenario1 with
    mode := .built, leafcnt := 5#9, nodecnt := 9#9, root := 8#9, total := 8#64, maxfreq := 3#64
    fwbytes := 1#8, work := [8#9]
    arena := [⟨.leaf, 0x61#8, 3#64, nilIdx, nilIdx⟩, ⟨.leaf, 0x74#8, 2#64, nilIdx, nilIdx⟩,
      ⟨.leaf, 0x20#8, 1#64, nilIdx, nilIdx⟩, ⟨.leaf, 0x62#8, 1#64, nilIdx, nilIdx⟩,
      ⟨.leaf, 0x78#8, 1#64, nilIdx, nilIdx⟩, ⟨.internal, 0x00#8, 2#64, 4#9, 3#9⟩,
      ⟨.internal, 0x00#8, 3#64, 2#9, 5#9⟩, ⟨.internal, 0x00#8, 5#64, 1#9, 6#9⟩,
      ⟨.internal, 0x00#8, 8#64, 0#9, 7#9⟩] }

/-- The block of V-B2: the tree of V-S2, at FREQ_BITS = 8, with NEXT unspecified (R23). -/
def tree2 : Block 8 :=
  { tableBlock 8 [(0x20, 1), (0x41, 5)] with
    mode := .built, leafcnt := 2#9, nodecnt := 3#9, root := 2#9, total := 6#8, maxfreq := 5#8
    fwbytes := 1#8, work := [2#9], nextIdx := Config.freeBits 9 (.allocNextBuilt 0)
    arena := [⟨.leaf, 0x41#8, 5#8, nilIdx, nilIdx⟩, ⟨.leaf, 0x20#8, 1#8, nilIdx, nilIdx⟩,
      ⟨.internal, 0x00#8, 6#8, 1#9, 0#9⟩] }

/-- The state of V-L6: DUP_SYMBOL raised by a second LOAD_PAIR 'A'. -/
def dupError : Block 64 :=
  { tableBlock 64 [(0x41, 5)] with
    mode := .error, err := .dupSymbol, resp := .dupSymbol, errcmd := 0x2041#16, cmd := 0x2041#16 }

/-! ## Well-formedness: an ill-formed line for each check, and the check refuses it -/

theorem test_wf_symbol_number : (AsmLine.readFreq (.num 255)).wf c8 = true ∧
    (AsmLine.readFreq (.num 256)).wf c8 = false := by decide
theorem test_wf_symbol_char : (AsmLine.readFreq (.char 'a')).wf c8 = true ∧
    (AsmLine.readFreq (.char (Char.ofNat 200))).wf c8 = false := by decide
theorem test_wf_index : (AsmLine.readNode 511).wf c8 = true ∧ (AsmLine.readNode 512).wf c8 = false := by
  decide
theorem test_wf_frequency : (AsmLine.setFreq (.num 0) 255).wf c8 = true ∧
    (AsmLine.setFreq (.num 0) 256).wf c8 = false := by decide
/-- The widest operands of an instruction are in range; its types leave no others. -/
theorem test_wf_instr : (Instr.readFreq 255#8).wf = true ∧ (Instr.readNode 511#9).wf = true := by decide

/-! ## Decoding: each constructor's word written from the patterns of R46 -/

theorem test_decode_clear : decode 0b0000000000000000#16 = .instr .clear := by decide
theorem test_decode_setFreq : decode 0b0001000001100001#16 = .instr (.setFreq 0x61#8) := by decide
theorem test_decode_loadPair : decode 0b0010000001000001#16 = .instr (.loadPair 0x41#8) := by decide
theorem test_decode_build : decode 0b0011000000000000#16 = .instr .build := by decide
theorem test_decode_readNode : decode 0b0100000100000001#16 = .instr (.readNode 257#9) := by decide
theorem test_decode_readLeaf : decode 0b0101000111111111#16 = .instr (.readLeaf 511#9) := by decide
theorem test_decode_readFreq : decode 0b0110000011111111#16 = .instr (.readFreq 0xFF#8) := by decide
/-- The illegal words of 95 2.5. -/
theorem test_decode_illegal :
    [0x0001#16, 0x0E00#16, 0x1161#16, 0x1E61#16, 0x2141#16, 0x3100#16, 0x4200#16, 0x6100#16, 0x7000#16,
      0x8000#16, 0xFFFF#16].all (fun w => match decode w with | .illegal _ => true | .instr _ => false) =
      true := by decide
theorem test_decodeTableWord :
    decodeTableWord 16 0x2041 = some (.loadPair 0x41#8) ∧ decodeTableWord 16 0x7000 = none := by decide

/-! ## The commands, one step each -/

/-- V-L1. -/
theorem test_setFreq : (accept64 0x1061#16 3 (Block.resetValue 64)).freqAt 0x61#8 = 3#64 := by
  decide +kernel
/-- V-L13: BAD_STATE keeps ROOT_LEAF. -/
theorem test_setFreq_built :
    (accept64 0x1041#16 2 { tableBlock 64 [(0x41, 1)] with mode := .built, rootLeaf := true }).statusWord =
      0x0027#16 := by decide +kernel
/-- V-L6. -/
theorem test_loadPair_dup : let b := accept64 0x2041#16 2 (tableBlock 64 [(0x41, 5)])
    b.statusWord = 0x0033#16 ∧ b.errcmd = 0x2041#16 ∧ b.freqAt 0x41#8 = 5#64 := by decide +kernel
/-- V-L8: ZERO_FREQ wins. -/
theorem test_loadPair_zero : (accept64 0x2041#16 0 (tableBlock 64 [(0x41, 5)])).statusWord =
    0x0043#16 := by decide +kernel
/-- V-B1. -/
theorem test_build_scenario1 : let b := run64 .build scenario1
    (b.arena = tree1.arena ∧ b.root = 8#9 ∧ b.nodecnt = 9#9 ∧ b.leafcnt = 5#9) ∧
      b.total = 8#64 ∧ b.maxfreq = 3#64 ∧ b.fwbytes = 1#8 ∧ b.statusWord = 0x0002#16 := by
  decide +kernel
/-- V-B14: a merged node equal to an existing one goes after it. -/
theorem test_build_tie : (run64 .build (tableBlock 64 [(0x61, 2), (0x62, 1), (0x63, 1)])).arena.drop 3 =
    [⟨.internal, 0#8, 2#64, 2#9, 1#9⟩, ⟨.internal, 0#8, 4#64, 3#9, 0#9⟩] := by decide +kernel
/-- V-B6: EMPTY_TABLE is code 5. -/
theorem test_build_empty : let b := accept64 0x3000#16 0 (Block.resetValue 64)
    b.statusWord = 0x0053#16 ∧ b.resp.code = 5#4 ∧ b.errcmd = 0x3000#16 ∧ b.root = 0x1FF#9 := by
  decide +kernel
/-- V-B16: FREQ_OVERFLOW is code 6. -/
theorem test_build_overflow : let b := buildBlock (tableBlock 8 [(0, 200), (1, 100)])
    b.statusWord = 0x0063#16 ∧ b.resp.code = 6#4 := by decide +kernel
/-- V-R1, the last row. -/
theorem test_readNode : let b := run64 (.readNode 8#9) tree1
    (b.ports false).rTag = 1#1 ∧ b.rSym = 0#8 ∧ b.rFreq = 8#64 ∧ b.rLeft = 0#9 ∧ b.rRight = 7#9 ∧ b.rIdx = 8#9 := by
  decide +kernel
/-- V-X6. -/
theorem test_readNode_past : (accept64 0x4009#16 0 tree1).statusWord = 0x0073#16 := by decide +kernel
/-- V-R3. -/
theorem test_readLeaf : let b := run64 (.readLeaf 2#9) tree1
    (b.ports false).rTag = 0#1 ∧ b.rSym = 0x20#8 ∧ b.rFreq = 1#64 ∧ b.rLeft = 0x1FF#9 ∧ b.rIdx = 2#9 := by
  decide +kernel
/-- As V-R9: an index at LEAFCNT, although that node exists. -/
theorem test_readLeaf_past : (accept64 0x5005#16 0 tree1).statusWord = 0x0073#16 := by decide +kernel
/-- V-R12. -/
theorem test_readFreq : let b := run64 (.readFreq 0x61#8) (tableBlock 64 [(0x61, 3)])
    b.rSym = 0x61#8 ∧ b.rFreq = 3#64 ∧ b.rIdx = 0x1FF#9 := by decide +kernel
/-- V-X2: a command in ERROR is ignored. -/
theorem test_ignored : let b := accept64 0x6041#16 0 dupError
    b.resp = .dupSymbol ∧ b.statusWord = 0x0033#16 ∧ b.rSym = 0#8 := by decide +kernel
/-- V-C3. -/
theorem test_clear : let b := accept64 0x0000#16 0 dupError
    b.statusWord = 0x0000#16 ∧ b.errcmd = 0x0000#16 ∧ b.freqAt 0x41#8 = 0#64 := by decide +kernel
/-- V-X5: ILLEGAL_CMD wins over BAD_STATE. -/
theorem test_illegal : let b := accept64 0x1161#16 0 tree1
    b.statusWord = 0x0013#16 ∧ b.errcmd = 0x1161#16 := by decide +kernel
/-- V-W1. -/
theorem test_fieldBytes :
    [1, 255, 256, 65535, 65536, 2 ^ 63, 2 ^ 64 - 1].map fieldBytes = [1, 1, 2, 2, 3, 8, 8] := by decide
/-- V-T2: reset wins over a command offered at the same edge. -/
theorem test_reset_edge :
    (after c8 (clockEdge ⟨c8, { tree2 with host := [⟨true, true, 0x1061#16, 3#8⟩] }⟩)).statusWord =
      0x0000#16 := by decide +kernel
/-- R51's example line. -/
theorem test_assemble : parseLine "SET_FREQ 'a', 3" = some (.setFreq (.char 'a') 3) ∧
    assemble c8 (.setFreq (.char 'a') 3) = some (0x1061#16, some 3#8) := by decide +kernel

/-! ## A valid tree and safe blocks, for the witnesses -/

theorem tree2_leafTotal : tree2.leafTotal = 2 := by decide +kernel

theorem idx_lt_two {i : Idx} (h : i.toNat < 2) : i = 0#9 ∨ i = 1#9 := by
  have : i.toNat = 0 ∨ i.toNat = 1 := by omega
  exact this.imp (fun h => BitVec.eq_of_toNat_eq h) (fun h => BitVec.eq_of_toNat_eq h)

theorem idx_eq_two {i : Idx} (h : 2 ≤ i.toNat) (h' : i.toNat < 3) : i = 2#9 :=
  BitVec.eq_of_toNat_eq (by simp; omega)

theorem tree2_results : tree2.ResultsValid where
  nonempty := by rw [tree2_leafTotal]; decide
  written := by rw [tree2_leafTotal]; rfl
  leafcnt := by rw [tree2_leafTotal]; rfl
  nodecnt := by rw [tree2_leafTotal]; rfl
  root := by rw [tree2_leafTotal]; rfl
  total := by decide +kernel
  maxfreqBound := by decide +kernel
  maxfreqHeld := ⟨0x41#8, by decide +kernel⟩
  fwbytes := by decide +kernel
  rootLeaf := by rw [tree2_leafTotal]; decide
  work := rfl

theorem tree2_leaves : tree2.LeavesValid where
  record := by
    intro i h; rw [tree2_leafTotal] at h
    rcases idx_lt_two h with rfl | rfl <;> decide +kernel
  ordered := by
    intro i j hij h; rw [tree2_leafTotal] at h
    rcases idx_lt_two h with rfl | rfl
    · simp at hij
    · rcases idx_lt_two (by omega : i.toNat < 2) with rfl | rfl
      · decide +kernel
      · simp at hij
  complete := by
    intro s hs
    have : s = 0x41#8 ∨ s = 0x20#8 := by revert s; decide +kernel
    rcases this with rfl | rfl
    · exact ⟨0#9, by rw [tree2_leafTotal]; decide, rfl⟩
    · exact ⟨1#9, by rw [tree2_leafTotal]; decide, rfl⟩

theorem tree2_internals : tree2.InternalsValid where
  record := by
    intro i h h'; rw [tree2_leafTotal] at h h'
    obtain rfl := idx_eq_two h h'; decide
  sum := by
    intro i h h'; rw [tree2_leafTotal] at h h'
    obtain rfl := idx_eq_two h h'; decide
  childOrder := by
    intro i h h'; rw [tree2_leafTotal] at h h'
    obtain rfl := idx_eq_two h h'; decide
  oneParent := by
    intro i h; rw [tree2_leafTotal] at h
    rcases Nat.lt_or_ge i.toNat 2 with h2 | h2
    · rcases idx_lt_two h2 with rfl | rfl <;> decide
    · obtain rfl := idx_eq_two h2 h; decide
  monotone := by
    intro i j h hij h'; rw [tree2_leafTotal] at h h'
    omega

theorem tree2_valid : tree2.TreeValid := ⟨tree2_results, tree2_leaves, tree2_internals⟩

theorem tree2_inv : tree2.Inv where
  resp := rfl
  err := by decide
  errcmd := by decide
  idle := by intro h; exact absurd h (by decide)
  idleReadOut := by intro h; exact absurd h (by decide)
  built := fun _ => tree2_valid
  error := by intro h; exact absurd h (by decide)
  busy := by intro left h; exact absurd h (by simp [tree2, tableBlock, Block.resetValue])

/-- An IDLE block with the table of V-S2, whose hidden storage and free values differ with `draws`. -/
def idle2 (draws : Nat) : Block 8 := { tableBlock 8 [(0x20, 1), (0x41, 5)] with draws := draws }

theorem idle2_inv (draws : Nat) : (idle2 draws).Inv where
  resp := rfl
  err := by simp [idle2, tableBlock, Block.resetValue]
  errcmd := by simp [idle2, tableBlock, Block.resetValue]
  idle := fun _ => ⟨rfl, rfl, rfl, rfl, rfl, rfl, rfl, rfl⟩
  idleReadOut := fun _ => ⟨rfl, rfl, rfl, rfl⟩
  built := by intro h; exact absurd h (by simp [idle2, tableBlock, Block.resetValue])
  error := by intro h; exact absurd h (by simp [idle2, tableBlock, Block.resetValue])
  busy := by intro left h; exact absurd h (by simp [idle2, tableBlock, Block.resetValue])

/-- The V-L6 error at FREQ_BITS = 8. -/
def error2 : Block 8 :=
  { tableBlock 8 [(0x41, 5)] with
    mode := .error, err := .dupSymbol, resp := .dupSymbol, errcmd := 0x2041#16 }

theorem error2_inv : error2.Inv where
  resp := rfl
  err := by decide
  errcmd := by decide
  idle := by intro h; exact absurd h (by decide)
  idleReadOut := by intro h; exact absurd h (by decide)
  built := by intro h; exact absurd h (by decide)
  error := fun _ => .inl ⟨rfl, rfl, rfl, rfl, rfl, rfl, rfl, rfl⟩
  busy := by intro left h; exact absurd h (by simp [error2, tableBlock, Block.resetValue])

/-- The free value in NEXT is compared apart: no evaluation reaches it. -/
theorem eq_of_eq_but_nextIdx {b t : Block 8} (h : b.nextIdx = t.nextIdx)
    (h' : { b with nextIdx := 0#9 } = { t with nextIdx := 0#9 }) : b = t := by
  cases b; cases t; simp_all

/-- The tree of V-S2 comes out of BUILD. -/
theorem tree2_built : exec .build ⟨c8, idle2 0⟩ = .next ⟨c8, tree2⟩ := by
  have hb : buildBlock (idle2 0) = buildWrites (idle2 0) :=
    buildBlock_builds rfl (by decide +kernel) (by decide +kernel)
  have hw : { buildWrites (idle2 0) with nextIdx := 0#9 } = { tree2 with nextIdx := 0#9 } := by decide +kernel
  have hn : (buildWrites (idle2 0)).nextIdx = tree2.nextIdx := by
    simp only [buildWrites, respondOk_nextIdx, setTree_nextIdx]; rfl
  rw [exec_mk, next_inj]
  exact hb.trans (eq_of_eq_but_nextIdx hn hw)

/-- The block with this word offered next, and 5 on `din`. -/
def offered (word : CmdWord) (b : Block 8) : Block 8 := { b with host := [offer word 5#8] }

/-! ## Witnesses: for each statement, a state and operands that meet its hypotheses together -/

theorem witness_EncodeDecodeRoundTrip : decode 0x41FF#16 = .instr (.readNode 511#9) := by decide

theorem witness_WordMatchesRowExactlyWhenDecoded :
    (⟨"READ_FREQ", 0x6000#16, 0xFF00#16⟩ : OpcodeRow) ∈ opcodeRows ∧
      (⟨"READ_FREQ", 0x6000#16, 0xFF00#16⟩ : OpcodeRow).hits 0x60FF#16 = true := by decide

theorem witness_IllegalWordsAreReservedAndRaise :
    (decode (sampled 0x6100#16 0 tree2).cmd = .illegal .symBitEight ∧ tree2.mode ≠ .error) ∧
      (decode (sampled 0x7000#16 0 error2).cmd = .illegal .reservedOpcode ∧ error2.mode = .error) := by
  decide

theorem witness_ResetEdgeWinsAndClearsAll :
    ({ tree2 with host := [⟨true, true, 0x1061#16, 3#8⟩], building := some 2 } : Block 8).host =
      (⟨true, true, 0x1061#16, 3#8⟩ : PortIn 8) :: [] ∧ (⟨true, true, 0x1061#16, 3#8⟩ : PortIn 8).rst = true :=
  ⟨rfl, rfl⟩

/-- READ_NODE at NODECNT in BUILT raises BAD_INDEX: a command that raises an error. -/
theorem witness_ErrorWritesExactlyFour :
    tree2.mode ≠ .error ∧ (raiseError .badIndex tree2).mode = .error ∧
      exec (.readNode 3#9) ⟨c8, tree2⟩ = .next ⟨c8, raiseError .badIndex tree2⟩ :=
  ⟨by decide, rfl, by rw [exec_mk]; rfl⟩

theorem witness_ErrorIgnoresAllButClear :
    error2.mode = .error ∧ Instr.build ≠ .clear ∧ (sampled 0x7000#16 0 error2).cmd ≠ 0x0000#16 := by decide

theorem witness_ErrorLeftOnlyByClearOrReset :
    error2.mode = .error ∧ error2.building = none ∧
      (step ⟨c8, offered 0x0000#16 error2⟩ =
        .next ⟨c8, stepBlock (offered 0x0000#16 error2)⟩ ∧
      (stepBlock (offered 0x0000#16 error2)).mode ≠ .error) :=
  ⟨rfl, rfl, step_mk _ _, by decide +kernel⟩

theorem witness_LegalityTableCells :
    tree2.mode = .built ∧ (idle2 0).mode = .idle ∧ error2.mode = .error ∧
      (exec (.loadPair 0x20#8) ⟨c8, idle2 0⟩ = .next ⟨c8, raiseError .zeroFreq (idle2 0)⟩ ∧
        (raiseError .zeroFreq (idle2 0)).mode = .error) ∧
      decode (sampled 0x4200#16 0 tree2).cmd = .illegal .reservedBits :=
  ⟨rfl, rfl, rfl, ⟨by rw [exec_mk]; rfl, rfl⟩, by decide⟩

theorem witness_SetFreqEffect :
    (idle2 0).mode = .idle ∧ tree2.mode = .built ∧
      ((0x10FF#16).extractLsb' 12 4 = 1#4 ∧ (0x10FF#16).extractLsb' 8 4 = 0#4) ∧
      ((sampled 0x1161#16 0 tree2).mode ≠ .error ∧
        (sampled 0x1161#16 0 tree2).cmd.extractLsb' 12 4 = 1#4 ∧
        (sampled 0x1161#16 0 tree2).cmd.extractLsb' 8 4 ≠ 0#4) := by decide

theorem witness_LoadPairEffect :
    ((sampled 0x2042#16 255 (idle2 0)).mode = .idle ∧ (sampled 0x2042#16 255 (idle2 0)).din ≠ 0#8 ∧
        (sampled 0x2042#16 255 (idle2 0)).freqAt 0x42#8 = 0#8) ∧
      (sampled 0x2041#16 256 (idle2 0)).din = 0#8 ∧
      ((sampled 0x2041#16 1 (idle2 0)).din ≠ 0#8 ∧
        (sampled 0x2041#16 1 (idle2 0)).freqAt 0x41#8 ≠ 0#8) ∧
      tree2.mode = .built ∧
      ((0x2041#16).extractLsb' 12 4 = 2#4 ∧ (0x2041#16).extractLsb' 8 4 = 0#4) ∧
      ((sampled 0x2141#16 0 tree2).mode ≠ .error ∧
        (sampled 0x2141#16 0 tree2).cmd.extractLsb' 12 4 = 2#4 ∧
        (sampled 0x2141#16 0 tree2).cmd.extractLsb' 8 4 ≠ 0#4) := by decide +kernel

/-- The last index below NODECNT, and NODECNT itself. -/
theorem witness_ReadNodeEffect :
    (tree2.mode = .built ∧ (2#9).toNat < tree2.nodecnt.toNat ∧ tree2.nodecnt.toNat ≤ (3#9).toNat) ∧
      (idle2 0).mode = .idle ∧
      ((0x41FF#16).extractLsb' 12 4 = 4#4 ∧ (0x41FF#16).extractLsb' 9 3 = 0#3) ∧
      ((sampled 0x4200#16 0 tree2).mode ≠ .error ∧
        (sampled 0x4200#16 0 tree2).cmd.extractLsb' 12 4 = 4#4 ∧
        (sampled 0x4200#16 0 tree2).cmd.extractLsb' 9 3 ≠ 0#3) := by decide

/-- The last index below LEAFCNT, and LEAFCNT itself. -/
theorem witness_ReadLeafEffect :
    (tree2.mode = .built ∧ (1#9).toNat < tree2.leafcnt.toNat ∧ tree2.leafcnt.toNat ≤ (2#9).toNat) ∧
      (idle2 0).mode = .idle ∧
      ((0x51FF#16).extractLsb' 12 4 = 5#4 ∧ (0x51FF#16).extractLsb' 9 3 = 0#3) ∧
      ((sampled 0x5200#16 0 tree2).mode ≠ .error ∧
        (sampled 0x5200#16 0 tree2).cmd.extractLsb' 12 4 = 5#4 ∧
        (sampled 0x5200#16 0 tree2).cmd.extractLsb' 9 3 ≠ 0#3) := by decide

theorem witness_ReadFreqEffect :
    (idle2 0).mode ≠ .error ∧ tree2.mode ≠ .error ∧
      ((0x60FF#16).extractLsb' 12 4 = 6#4 ∧ (0x60FF#16).extractLsb' 8 4 = 0#4) ∧
      ((sampled 0x6100#16 0 tree2).mode ≠ .error ∧
        (sampled 0x6100#16 0 tree2).cmd.extractLsb' 12 4 = 6#4 ∧
        (sampled 0x6100#16 0 tree2).cmd.extractLsb' 8 4 ≠ 0#4) := by decide

theorem witness_ClearEffect :
    ((sampled 0x0001#16 0 tree2).mode ≠ .error ∧ (sampled 0x0001#16 0 error2).mode = .error) ∧
      (sampled 0x0001#16 0 tree2).cmd.extractLsb' 12 4 = 0#4 ∧
      (sampled 0x0001#16 0 tree2).cmd ≠ 0x0000#16 := by decide

theorem resetValue_freq (w : Nat) (s : Sym) : (Block.resetValue w).freqAt s = 0#w := by
  simp [Block.resetValue, Block.freqAt, tableAt]

/-- An empty table; a sum one above 255 (V-B16 with a tighter sum); and BUILT. -/
theorem witness_BuildInputChecks :
    ((Block.resetValue 8).mode = .idle ∧ ∀ s : Sym, (Block.resetValue 8).freqAt s = 0#8) ∧
      ((tableBlock 8 [(0, 128), (1, 128)]).mode = .idle ∧
        (tableBlock 8 [(0, 128), (1, 128)]).freqAt 0#8 ≠ 0#8 ∧
        2 ^ c8.freqBits - 1 <
          (allSyms.map (fun s => ((tableBlock 8 [(0, 128), (1, 128)]).freqAt s).toNat)).sum) ∧
      tree2.mode = .built :=
  ⟨⟨rfl, resetValue_freq 8⟩, ⟨rfl, by decide +kernel, by decide +kernel⟩, rfl⟩

/-- V-B17: the sum is exactly 255. -/
theorem witness_BuildYieldsValidTree :
    (tableBlock 8 [(0, 128), (1, 127)]).mode = .idle ∧
      (tableBlock 8 [(0, 128), (1, 127)]).freqAt 0#8 ≠ 0#8 ∧
      (allSyms.map (fun s => ((tableBlock 8 [(0, 128), (1, 127)]).freqAt s).toNat)).sum ≤
        2 ^ c8.freqBits - 1 := by decide +kernel

/-- One leaf (V-B3), and two. -/
theorem witness_OneLeafNeedsNoMerge :
    ((tableBlock 8 [(0x20, 1)]).mode = .idle ∧
        1 = (allSyms.filter (fun s => (tableBlock 8 [(0x20, 1)]).freqAt s ≠ 0#8)).length ∧
        (allSyms.map (fun s => ((tableBlock 8 [(0x20, 1)]).freqAt s).toNat)).sum ≤
          2 ^ c8.freqBits - 1) ∧
      ((idle2 0).mode = .idle ∧
        2 = (allSyms.filter (fun s => (idle2 0).freqAt s ≠ 0#8)).length ∧
        (allSyms.map (fun s => ((idle2 0).freqAt s).toNat)).sum ≤ 2 ^ c8.freqBits - 1) := by
  decide +kernel

theorem witness_BuildSeedsThenMerges :
    (idle2 0).mode = .idle ∧
      2 = (allSyms.filter (fun s => (idle2 0).freqAt s ≠ 0#8)).length ∧
      (allSyms.map (fun s => ((idle2 0).freqAt s).toNat)).sum ≤ 2 ^ c8.freqBits - 1 :=
  witness_OneLeafNeedsNoMerge.2

theorem witness_BuildStatistics :
    (idle2 0).mode = .idle ∧ (idle2 0).freqAt 0x20#8 ≠ 0#8 ∧
      (allSyms.map (fun s => ((idle2 0).freqAt s).toNat)).sum ≤ 2 ^ c8.freqBits - 1 := by decide +kernel

theorem witness_BuildDependsOnTableOnly :
    ((idle2 0).Inv ∧ (idle2 7).Inv ∧ (idle2 0).mode = .idle ∧ (idle2 7).mode = .idle) ∧
      ((idle2 0).building = none ∧ (idle2 7).building = none ∧ (idle2 0).freq = (idle2 7).freq) ∧
      exec .build ⟨c8, idle2 0⟩ = .next ⟨c8, buildBlock (idle2 0)⟩ ∧
      exec .build ⟨c8, idle2 7⟩ = .next ⟨c8, buildBlock (idle2 7)⟩ :=
  ⟨⟨idle2_inv 0, idle2_inv 7, rfl, rfl⟩, ⟨rfl, rfl, rfl⟩, exec_mk _ _ _, exec_mk _ _ _⟩

theorem witness_MergeNeverOverflows :
    tableSum (idle2 0).freq ≤ 2 ^ 8 - 1 ∧
      (mergeLoop 0 0 (seedForest (idle2 0).freq)).work = [] ++ [0#9, 1#9] := by decide +kernel

theorem witness_MergedNodeInsertedAfterEquals :
    let p := insertPos 0 tree2.arena [0#9, 1#9] 1
    (1 < p ∧ [0#9, 1#9][1]? = some 1#9) ∧ (∀ x ∈ [0#9, 1#9], 1 ≤ freqOf 0 tree2.arena x) ∧
      [0#9, 1#9][insertPos 0 tree2.arena [0#9, 1#9] 2]? = some 1#9 ∧
      [0#9, 1#9].Pairwise (fun x y => freqOf 0 tree2.arena y ≤ freqOf 0 tree2.arena x) := by decide

theorem witness_WorkStaysOrdered :
    tableSum (idle2 0).freq ≤ 2 ^ 8 - 1 ∧
      (mergeLoop 0 0 (seedForest (idle2 0).freq)).work = [] ++ [0#9, 1#9] :=
  witness_MergeNeverOverflows

theorem witness_SeedOrderStrictTotal :
    seedBefore (idle2 0).freq 0x41#8 0x20#8 = true ∧ seedBefore (idle2 0).freq 0x20#8 0x00#8 = true ∧
      (0x41#8 : Sym) ≠ 0x20#8 := by decide +kernel

theorem witness_FieldBytesLeast : 1 ≤ 2 ∧ 256 < 256 ^ 2 := by decide

theorem witness_EveryNodeHasOnePathLabel :
    tree2.TreeValid ∧ (IsPathLabel tree2 2#9 [] ∧ (tree2.nodeAt 2#9).tag = .internal) ∧
      (2#9).toNat < tree2.nodecnt.toNat :=
  ⟨tree2_valid, ⟨rfl, rfl⟩, by decide⟩

theorem witness_LeafLabelsPrefixFree :
    tree2.TreeValid ∧ ((0#9).toNat < tree2.leafcnt.toNat ∧ (1#9).toNat < tree2.leafcnt.toNat) ∧
      (IsPathLabel tree2 0#9 [true] ∧ IsPathLabel tree2 1#9 [false]) ∧ 2 ≤ tree2.leafcnt.toNat :=
  ⟨tree2_valid, by decide, ⟨rfl, rfl⟩, by decide⟩

theorem witness_CodewordLengthBound :
    tree2.TreeValid ∧ (1#9).toNat < tree2.leafcnt.toNat ∧ IsPathLabel tree2 1#9 [false] :=
  ⟨tree2_valid, by decide, rfl⟩

theorem witness_WeightedLengthIsInternalSum :
    tree2.TreeValid ∧ ∀ k : Idx, k.toNat < tree2.leafcnt.toNat →
      ∃ bits, IsPathLabel tree2 k bits ∧ bits.length = (fun _ => 1) k.toNat := by
  refine ⟨tree2_valid, fun k hk => ?_⟩
  rcases idx_lt_two hk with rfl | rfl
  · exact ⟨[true], rfl, rfl⟩
  · exact ⟨[false], rfl, rfl⟩

theorem witness_BuiltTreeIsOptimal :
    ((idle2 0).mode = .idle ∧ exec .build ⟨c8, idle2 0⟩ = .next ⟨c8, tree2⟩ ∧ tree2.mode = .built) ∧
      (CodeTree.node (.leaf 0x20#8) (.leaf 0x41#8)).syms.Perm
        (allSyms.filter (fun s => (idle2 0).freqAt s ≠ 0#8)) :=
  ⟨⟨rfl, tree2_built, rfl⟩, by decide +kernel⟩

theorem witness_ReadLeafMatchesReadNode :
    tree2.Inv ∧ tree2.mode = .built ∧ (1#9).toNat < tree2.leafcnt.toNat :=
  ⟨tree2_inv, rfl, by decide⟩

theorem witness_LoadingGivesTheTable :
    ((Block.resetValue 8).mode = .idle ∧ (Block.resetValue 8).building = none ∧
        ∀ s : Sym, (Block.resetValue 8).freqAt s = 0#8) ∧
      ([(0x41#8, 5#8), (0x20#8, 1#8)].map Prod.fst : List Sym).Nodup ∧
      ∀ q ∈ ([(0x41#8, 5#8), (0x20#8, 1#8)] : List (Sym × BitVec 8)), q.2 ≠ 0#8 :=
  ⟨⟨rfl, rfl, resetValue_freq 8⟩, by decide, by simp⟩

theorem witness_HeaderPairsRebuildTheTree :
    ((idle2 0).mode = .idle ∧ exec .build ⟨c8, idle2 0⟩ = .next ⟨c8, tree2⟩ ∧ tree2.mode = .built) ∧
      ((Block.resetValue 8).mode = .idle ∧ (Block.resetValue 8).building = none ∧
        ∀ s : Sym, (Block.resetValue 8).freqAt s = 0#8) ∧
      [(0x20#8, 1#8), (0x41#8, 5#8)].Perm (leafPairs tree2) :=
  ⟨⟨rfl, tree2_built, rfl⟩, ⟨rfl, rfl, resetValue_freq 8⟩, by decide +kernel⟩

theorem witness_StepKeepsInvariant :
    (State.mk c8 tree2).Inv ∧ step ⟨c8, tree2⟩ = .next ⟨c8, stepBlock tree2⟩ :=
  ⟨tree2_inv, step_mk _ _⟩

theorem witness_ClockEdgeKeepsInvariant :
    (State.mk c8 error2).Inv ∧ clockEdge ⟨c8, error2⟩ = .next ⟨c8, clockBlock error2⟩ :=
  ⟨error2_inv, clockEdge_mk _ _⟩

theorem witness_StepRunsDecodedCommand :
    ((offered 0x1042#16 (idle2 0)).building = none ∧
        (offered 0x1042#16 (idle2 0)).host = offer 0x1042#16 5#8 :: [] ∧
        (offer 0x1042#16 5#8).rst = false ∧ (offer 0x1042#16 5#8).cmdValid = true ∧
        decode (offer 0x1042#16 5#8).cmd = .instr (.setFreq 0x42#8)) ∧
      decodeTableWord 16 0x3000 = some .build := by decide +kernel

theorem witness_StepWithoutCommand :
    ((idle2 0).building = none ∧ (idle2 0).host = []) ∧
      (({ idle2 0 with host := [⟨false, false, 0#16, 0#8⟩] } : Block 8).host =
        (⟨false, false, 0#16, 0#8⟩ : PortIn 8) :: []) ∧
      (({ idle2 0 with building := some 1 } : Block 8).building = some 1 ∧
        ∀ p ∈ (idle2 0).host.head?, p.rst = false) := by decide +kernel

theorem witness_BuiltTreeIsFrozen :
    tree2.mode = .built ∧ step ⟨c8, offered 0x3000#16 tree2⟩ =
      .next ⟨c8, stepBlock (offered 0x3000#16 tree2)⟩ := ⟨rfl, step_mk _ _⟩

/-- IDLE is entered from BUILT by CLEAR, and BUILT from IDLE by BUILD. -/
theorem witness_StateTransitions :
    (tree2.mode ≠ .idle ∧ (stepBlock (offered 0x0000#16 tree2)).mode = .idle) ∧
      ((idle2 0).mode ≠ .built ∧ (stepBlock (offered 0x3000#16 (idle2 0))).mode = .built) := by
  decide +kernel

theorem witness_RespIsTheResult :
    (tree2.mode ≠ .error ∧ (sampledEffect (sampled 0x4002#16 0 tree2)).mode ≠ .error) ∧
      (sampledEffect (sampled 0x4003#16 0 tree2)).mode = .error ∧
      (error2.mode = .error ∧ (sampledEffect (sampled 0x4003#16 0 error2)).mode = .error) ∧
      ({ tree2 with host := [⟨true, false, 0#16, 0#8⟩] } : Block 8).host =
        (⟨true, false, 0#16, 0#8⟩ : PortIn 8) :: [] := by decide +kernel

theorem witness_StatusLayout :
    tree2.building = none ∧ ({ tree2 with building := some 1 } : Block 8).building = some 1 ∧
      tree2.Inv ∧ tree2.statusWord.extractLsb' 0 2 ≠ 3#2 :=
  ⟨rfl, rfl, tree2_inv, by decide⟩

theorem witness_ReadsAreIdempotent :
    (exec (.readNode 2#9) ⟨c8, tree2⟩ = .next ⟨c8, readNodeBlock 2#9 tree2⟩ ∧
        (readNodeBlock 2#9 tree2).mode ≠ .error ∧ (readNodeBlock 3#9 tree2).mode = .error) ∧
      exec (.setFreq 0x42#8) ⟨c8, idle2 0⟩ = .next ⟨c8, setFreqBlock 0x42#8 (idle2 0)⟩ ∧
      (loadPairBlock 0x42#8 (sampled 0x2042#16 5 (idle2 0))).mode ≠ .error :=
  ⟨⟨exec_mk _ _ _, by decide, by decide⟩, exec_mk _ _ _, by decide +kernel⟩

theorem witness_ObservationShowsDefinedStorage :
    tree2.mode = .built ∧ (idle2 0).mode = .idle ∧ error2.Inv ∧ error2.mode = .error :=
  ⟨rfl, rfl, error2_inv, rfl⟩

theorem witness_OfferWithoutReadyHasNoEffect :
    (offer 0x0000#16 5#8).rst = false ∧ (offer 0x4002#16 1#8).rst = false ∧
      ({ idle2 0 with building := some 2 } : Block 8).building ≠ none ∧ (idle2 0).building = none ∧
      (⟨false, false, 0#16, 0#8⟩ : PortIn 8).cmdValid = false ∧ (offer 0x0000#16 5#8).cmdValid = true := by
  decide

theorem witness_OtherCommandsTakeOneEdge :
    tree2.building = none ∧ (offered 0x4002#16 tree2).host = offer 0x4002#16 5#8 :: [] ∧
      (offer 0x4002#16 5#8).rst = false ∧ (offer 0x4002#16 5#8).cmdValid = true ∧
      decode (offer 0x4002#16 5#8).cmd ≠ .instr .build := ⟨rfl, rfl, rfl, rfl, by decide⟩

/-- With nothing driven after the BUILD, no reset comes within its latency, whatever that is. -/
theorem witness_ClockedBuildRefinesAtomicBuild :
    (idle2 0).building = none ∧ (idle2 0).mode ≠ .error ∧
      (offered 0x3000#16 (idle2 0)).host = offer 0x3000#16 5#8 :: [] ∧
      (offer 0x3000#16 5#8).rst = false ∧ (offer 0x3000#16 5#8).cmdValid = true ∧
      (offer 0x3000#16 5#8).cmd = 0x3000#16 ∧
      ∀ q ∈ ([] : List (PortIn 8)).take (buildLatency (idle2 0).freq), q.rst = false :=
  ⟨rfl, nofun, rfl, rfl, rfl, rfl, by simp⟩

theorem witness_BusyPortsView : ({ idle2 0 with building := some 1 } : Block 8).building = some 1 := rfl

theorem witness_PortsCarryTheRegisters : tree2.building = none := rfl

theorem witness_BuildIgnoredInErrorTakesOneEdge :
    error2.building = none ∧ error2.mode = .error ∧
      (offered 0x3000#16 error2).host = offer 0x3000#16 5#8 :: [] ∧
      (offer 0x3000#16 5#8).rst = false ∧ (offer 0x3000#16 5#8).cmdValid = true ∧
      (offer 0x3000#16 5#8).cmd = 0x3000#16 := ⟨rfl, rfl, rfl, rfl, rfl, rfl⟩

theorem witness_AssemblerEncodesAndRefuses :
    assemble c8 (.setFreq (.num 255) 255) = some (0x10FF#16, some 255#8) ∧
      assemble c8 (.readNode 511) = some (0x41FF#16, none) := by decide +kernel

end Sys2Proof.Tests
end

section
/-! PROOFS. The seed order (R12): what it says, and that it is a strict total order. -/

namespace Sys2Proof.Machine

variable {w : Nat} {table : Vector (BitVec w) 256} {s t u : Sym}

/-- The seed order in R12's words: a higher frequency first, and the lower symbol among equals. -/
theorem seedBefore_iff : seedBefore table s t = true ↔
    (tableAt table t).toNat < (tableAt table s).toNat ∨
      (tableAt table s = tableAt table t ∧ s.toNat < t.toNat) := by
  simp [seedBefore]

/-- The seed order as comparisons of numbers only, the spelling `omega` reads. -/
theorem seedBefore_iff_toNat : seedBefore table s t = true ↔
    (tableAt table t).toNat < (tableAt table s).toNat ∨
      ((tableAt table s).toNat = (tableAt table t).toNat ∧ s.toNat < t.toNat) := by
  rw [seedBefore_iff, BitVec.toNat_inj]

@[simp] theorem seedBefore_self (table : Vector (BitVec w) 256) (s : Sym) :
    seedBefore table s s = false := by
  simp [seedBefore]

theorem seedBefore_trans (hst : seedBefore table s t = true) (htu : seedBefore table t u = true) :
    seedBefore table s u = true := by
  rw [seedBefore_iff_toNat] at *
  omega

theorem seedBefore_or_seedBefore_of_ne (table : Vector (BitVec w) 256) (hne : s ≠ t) :
    seedBefore table s t = true ∨ seedBefore table t s = true := by
  have hsym : s.toNat ≠ t.toNat := fun h => hne (BitVec.eq_of_toNat_eq h)
  rw [seedBefore_iff_toNat, seedBefore_iff_toNat]
  omega

/-- Settles O26: frequencies and symbols are both compared as numbers, so the lexicographic order of R12
is strict and total. -/
theorem seedOrderStrictTotal : Obligations.SeedOrderStrictTotal := fun _ table s _ _ =>
  ⟨seedBefore_iff, seedBefore_self table s, seedBefore_trans, seedBefore_or_seedBefore_of_ne table⟩

end Sys2Proof.Machine
end

section
/-! PROOFS. A step is the decoded command, run at the state with the port sampled (R9, R103). -/

namespace Sys2Proof.Machine

variable {w : Nat}

theorem sampledEffect_of_decode {b : Block w} {i : Instr} (h : decode b.cmd = .instr i) :
    sampledEffect b = effect i b := by
  simp [sampledEffect, h]

/-- Outside BUSY, an offer that no reset overrides is sampled and taken off the queue, and then runs. -/
theorem stepBlock_of_offer {b : Block w} {p : PortIn w} {rest : List (PortIn w)}
    (hidle : b.building = none) (hhost : b.host = p :: rest) (hrst : p.rst = false)
    (hvalid : p.cmdValid = true) :
    stepBlock b = sampledEffect (sample p (withHost rest b)) := by
  simp [stepBlock, Block.busy, hidle, hhost, hrst, hvalid]

theorem step_of_offer {c : Config} {b : Block c.freqBits} {p : PortIn c.freqBits}
    {rest : List (PortIn c.freqBits)} {i : Instr}
    (hidle : b.building = none) (hhost : b.host = p :: rest) (hrst : p.rst = false)
    (hvalid : p.cmdValid = true) (hdec : decode p.cmd = .instr i) :
    step ⟨c, b⟩ = exec i ⟨c, sample p (withHost rest b)⟩ := by
  have hcmd : decode (sample p (withHost rest b)).cmd = .instr i := hdec
  rw [step_mk, exec_mk, stepBlock_of_offer hidle hhost hrst hvalid, sampledEffect_of_decode hcmd]

theorem decodeTableWord_eq_some_iff {nbits word : Nat} {i : Instr} :
    decodeTableWord nbits word = some i ↔ decode (tableWord nbits word) = .instr i := by
  unfold decodeTableWord
  cases decode (tableWord nbits word) <;> simp

theorem withFetchWord_mk (c : Config) (b : Block c.freqBits) (nbits word : Nat) :
    State.withFetchWord ⟨c, b⟩ nbits word =
      ⟨c, withBuilding none (withHost (offer (tableWord nbits word) b.din :: b.host) b)⟩ := rfl

/-- Sampling the word that `withFetchWord` offers leaves the queue and `din` as they were. -/
theorem sample_offer_placed (word : CmdWord) (b : Block w) :
    sample (offer word b.din)
        (withHost b.host (withBuilding none (withHost (offer word b.din :: b.host) b))) =
      { b with building := none, cmd := word } := rfl

theorem step_withFetchWord {c : Config} {b : Block c.freqBits} {nbits word : Nat} {i : Instr}
    (hdec : decodeTableWord nbits word = some i) :
    step (State.withFetchWord ⟨c, b⟩ nbits word) =
      exec i ⟨c, { b with building := none, cmd := tableWord nbits word }⟩ := by
  have hword : decode (offer (tableWord nbits word) b.din).cmd = .instr i :=
    decodeTableWord_eq_some_iff.1 hdec
  rw [withFetchWord_mk, step_of_offer rfl rfl rfl rfl hword, sample_offer_placed]

/-- Settles O40: an offer outside BUSY is sampled and then run, and `withFetchWord` makes such an offer. -/
theorem stepRunsDecodedCommand : Obligations.StepRunsDecodedCommand :=
  ⟨fun _ _ _ _ _ => step_of_offer, fun _ _ _ _ _ => step_withFetchWord⟩

end Sys2Proof.Machine
end

section
/-! PROOFS. The seeding: the leaves are the present symbols in the seed order, and the working sequence counts
them (R56 to R61). -/

namespace Sys2Proof.Machine

variable {w : Nat} {table : Vector (BitVec w) 256} {s : Sym}

theorem seedInsert_pairwise {l : List Sym} (hs : s ∉ l)
    (h : l.Pairwise (fun t u => seedBefore table t u = true)) :
    (seedInsert table s l).Pairwise (fun t u => seedBefore table t u = true) := by
  induction l with
  | nil => simp [seedInsert]
  | cons x rest ih =>
    obtain ⟨hx, hrest⟩ := List.pairwise_cons.1 h
    obtain ⟨hne, hs⟩ := not_or.1 (mt List.mem_cons.2 hs)
    unfold seedInsert
    split
    next hsx =>
      refine h.cons fun y hy => ?_
      obtain rfl | hy := List.mem_cons.1 hy
      · exact hsx
      · exact seedBefore_trans hsx (hx y hy)
    next hsx =>
      have hxs := (seedBefore_or_seedBefore_of_ne table hne).resolve_left hsx
      refine (ih hs hrest).cons fun y hy => ?_
      obtain rfl | hy := List.mem_cons.1 ((seedInsert_perm table s rest).mem_iff.1 hy)
      · exact hxs
      · exact hx y hy

theorem foldr_seedInsert_perm (table : Vector (BitVec w) 256) (l : List Sym) :
    (l.foldr (seedInsert table) []).Perm l := by
  induction l with
  | nil => rfl
  | cons x rest ih => exact (seedInsert_perm table x _).trans (ih.cons x)

theorem seedList_perm (table : Vector (BitVec w) 256) : (seedList table).Perm (presentSyms table) :=
  foldr_seedInsert_perm table _

theorem foldr_seedInsert_pairwise {l : List Sym} (h : l.Nodup) :
    (l.foldr (seedInsert table) []).Pairwise (fun t u => seedBefore table t u = true) := by
  induction l with
  | nil => exact .nil
  | cons x rest ih =>
    obtain ⟨hx, hrest⟩ := List.nodup_cons.1 h
    exact seedInsert_pairwise (mt (foldr_seedInsert_perm table rest).mem_iff.1 hx) (ih hrest)

theorem seedList_pairwise (table : Vector (BitVec w) 256) :
    (seedList table).Pairwise (fun t u => seedBefore table t u = true) :=
  foldr_seedInsert_pairwise (presentSyms_nodup table)

theorem mem_seedList : s ∈ seedList table ↔ tableAt table s ≠ 0#w :=
  (seedList_perm table).mem_iff.trans mem_presentSyms

@[simp] theorem seedList_length (table : Vector (BitVec w) 256) :
    (seedList table).length = (presentSyms table).length := (seedList_perm table).length_eq

/-- The absent symbols add nothing to the table's sum. -/
theorem sum_seedList (table : Vector (BitVec w) 256) :
    ((seedList table).map (fun s => (tableAt table s).toNat)).sum = tableSum table := by
  rw [((seedList_perm table).map _).sum_eq]
  unfold presentSyms tableSum
  induction allSyms with
  | nil => rfl
  | cons x rest ih => by_cases hx : tableAt table x = 0#w <;> simp [hx, ← ih]

@[simp] theorem seedForest_nodes (table : Vector (BitVec w) 256) :
    (seedForest table).nodes = (seedList table).map (leafNode table) := rfl

theorem seedForest_work (table : Vector (BitVec w) 256) :
    (seedForest table).work = (List.range (presentSyms table).length).map (BitVec.ofNat 9) := by
  simp [seedForest]

theorem mem_seedForest_work {x : Idx} :
    x ∈ (seedForest table).work ↔ x.toNat < (presentSyms table).length := by
  have hle := presentSyms_length_le table
  rw [seedForest_work, List.mem_map]
  constructor
  · rintro ⟨k, hk, rfl⟩
    rw [List.mem_range] at hk
    rw [BitVec.toNat_ofNat]
    omega
  · exact fun hx => ⟨x.toNat, List.mem_range.2 hx, by simp⟩

theorem seedForest_work_nodup (table : Vector (BitVec w) 256) : (seedForest table).work.Nodup := by
  have hle := presentSyms_length_le table
  rw [seedForest_work]
  refine List.Nodup.map_on (fun i hi j hj h => ?_) List.nodup_range
  have := congrArg BitVec.toNat h
  simp only [List.mem_range, BitVec.toNat_ofNat] at *
  omega

/-- Record `k` of an arena that starts with the leaves is the leaf of the seed order's element `k` (R59). -/
theorem nodeIn_of_seeds {d : Nat} {nodes : List (Node w)} (h : (seedForest table).nodes <+: nodes)
    {i : Idx} (hi : i.toNat < (seedList table).length) :
    nodeIn d nodes i = leafNode table (seedList table)[i.toNat] := by
  obtain ⟨more, rfl⟩ := h
  apply nodeIn_of_getElem?
  rw [List.getElem?_append_left (by simpa using hi)]
  simp [List.getElem?_eq_getElem hi]

theorem seedForest_freqs (d : Nat) (table : Vector (BitVec w) 256) :
    (seedForest table).work.map (freqOf d (seedForest table).nodes) =
      (seedList table).map (fun s => (tableAt table s).toNat) := by
  have hle := presentSyms_length_le table
  refine List.ext_getElem (by simp [seedForest_work]) fun k hk hk' => ?_
  have hk' : k < (seedList table).length := by simpa using hk'
  have hidx : (BitVec.ofNat 9 k).toNat = k := by simp at hk' ⊢; omega
  simp only [seedForest_work, List.getElem_map, List.getElem_range, freqOf]
  rw [nodeIn_of_seeds List.prefix_rfl (by omega)]
  simp [hidx, leafNode]

end Sys2Proof.Machine
end

section
/-! PROOFS. The merge loop: what every merge keeps (R61 to R66). -/

namespace Sys2Proof.Machine

variable {w : Nat}

/-! How often a node is a child. -/

theorem childCount_append_internal (nodes : List (Node w)) (d : Nat) (a b i : Idx) :
    childCount (nodes ++ [mergedNode d nodes a b]) i =
      childCount nodes i + ((if a = i then 1 else 0) + (if b = i then 1 else 0)) := by
  simp [childCount, mergedNode]

theorem childCount_leaves (table : Vector (BitVec w) 256) (l : List Sym) (i : Idx) :
    childCount (l.map (leafNode table)) i = 0 := by
  simp [childCount, leafNode, List.sum_eq_zero_iff]

/-! Where the merged node goes (R65). -/

/-- In an ordered working sequence the merged node parts the elements at least as frequent from the rest. -/
theorem insertAt_insertPos_split {d f : Nat} {nodes : List (Node w)} {work : List Idx} (v : Idx)
    (h : work.Pairwise (fun x y => freqOf d nodes y ≤ freqOf d nodes x)) :
    ∃ high low, work = high ++ low ∧ insertAt work (insertPos d nodes work f) v = high ++ v :: low ∧
      (∀ x ∈ high, f ≤ freqOf d nodes x) ∧ (∀ x ∈ low, freqOf d nodes x < f) := by
  induction work with
  | nil => exact ⟨[], [], rfl, rfl, by simp, by simp⟩
  | cons x rest ih =>
    obtain ⟨hx, hrest⟩ := List.pairwise_cons.1 h
    by_cases hlt : freqOf d nodes x < f
    · refine ⟨[], x :: rest, rfl, by simp [insertPos, insertAt, List.findIdx_cons, hlt], by simp, ?_⟩
      intro y hy
      obtain rfl | hy := List.mem_cons.1 hy
      · exact hlt
      · exact (hx y hy).trans_lt hlt
    · obtain ⟨high, low, hsplit, hins, hhigh, hlow⟩ := ih hrest
      refine ⟨x :: high, low, by simp [hsplit], ?_, ?_, hlow⟩
      · simp only [insertPos, insertAt] at hins
        simp [insertPos, insertAt, List.findIdx_cons, hlt, hins]
      · exact List.forall_mem_cons.2 ⟨Nat.le_of_not_lt hlt, hhigh⟩

/-! The invariant of the loop. -/

/-- Record `i` joins two earlier records, the lighter one on the left (R63, R64; R71 items 3 to 5). -/
structure JoinsTwo (d : Nat) (nodes : List (Node w)) (i : Idx) : Prop where
  tag : (nodeIn d nodes i).tag = .internal
  sym : (nodeIn d nodes i).sym = 0x00#8
  left : (nodeIn d nodes i).left.toNat < i.toNat
  right : (nodeIn d nodes i).right.toNat < i.toNat
  distinct : (nodeIn d nodes i).left ≠ (nodeIn d nodes i).right
  sum : freqOf d nodes i =
    freqOf d nodes (nodeIn d nodes i).left + freqOf d nodes (nodeIn d nodes i).right
  childOrder : freqOf d nodes (nodeIn d nodes i).left ≤ freqOf d nodes (nodeIn d nodes i).right

/-- A build in the making of this table: what the seeding gives and every merge keeps. With `n` leaves, the
records are the leaves and then the internal nodes, and WORK holds the roots of the trees made so far. -/
structure Forest.Grown (d : Nat) (table : Vector (BitVec w) 256) (F : Forest w) : Prop where
  /-- Each merge writes one record and leaves one element less. -/
  count : F.nodes.length + F.work.length = 2 * (presentSyms table).length
  seeds : (seedForest table).nodes <+: F.nodes
  nodup : F.work.Nodup
  written : ∀ x ∈ F.work, x.toNat < F.nodes.length
  /-- The newest record is a root. -/
  newest : ∀ x : Idx, x.toNat + 1 = F.nodes.length → x ∈ F.work
  ordered : F.work.Pairwise (fun x y => freqOf d F.nodes y ≤ freqOf d F.nodes x)
  /-- The roots carry the whole table. -/
  total : (F.work.map (freqOf d F.nodes)).sum = tableSum table
  /-- Every record but the roots has one parent. -/
  parents : ∀ i : Idx, childCount F.nodes i = if i.toNat < F.nodes.length ∧ i ∉ F.work then 1 else 0
  joins : ∀ i : Idx, (presentSyms table).length ≤ i.toNat → i.toNat < F.nodes.length →
    JoinsTwo d F.nodes i
  monotone : ∀ i j : Idx, (presentSyms table).length ≤ i.toNat → i.toNat < j.toNat →
    j.toNat < F.nodes.length → freqOf d F.nodes i ≤ freqOf d F.nodes j
  /-- No internal node is heavier than two roots together, so the next merge is no lighter. -/
  light : ∀ i : Idx, (presentSyms table).length ≤ i.toNat → i.toNat < F.nodes.length →
    ∀ x ∈ F.work, ∀ y ∈ F.work, x ≠ y → freqOf d F.nodes i ≤ freqOf d F.nodes x + freqOf d F.nodes y

/-- The seeding (R59, R61): no internal node yet, and every leaf a root. -/
theorem Forest.Grown.seed (d : Nat) (table : Vector (BitVec w) 256) : (seedForest table).Grown d table := by
  have hlen : (seedForest table).nodes.length = (presentSyms table).length := by simp
  have hwork : (seedForest table).work.length = (presentSyms table).length := by simp [seedForest_work]
  constructor
  case count => omega
  case seeds => exact List.prefix_rfl
  case nodup => exact seedForest_work_nodup table
  case written => exact fun x hx => hlen.symm ▸ mem_seedForest_work.1 hx
  case newest => exact fun x hx => mem_seedForest_work.2 (by omega)
  case ordered =>
    rw [← List.pairwise_map (f := freqOf d _) (R := fun m n => n ≤ m), seedForest_freqs, List.pairwise_map]
    refine (seedList_pairwise table).imp fun h => ?_
    rw [seedBefore_iff_toNat] at h
    omega
  case total => rw [seedForest_freqs, sum_seedList]
  case parents =>
    intro i
    simp only [mem_seedForest_work, hlen]
    simp [childCount_leaves]
  case joins => intro i h h'; omega
  case monotone => intro i j h h' h''; omega
  case light => intro i h h'; omega

section append

variable {d : Nat} {nodes : List (Node w)} {i : Idx}

theorem freqOf_append (hi : i.toNat < nodes.length) (d : Nat) (more : List (Node w)) :
    freqOf d (nodes ++ more) i = freqOf d nodes i := by
  rw [freqOf, nodeIn_append hi, freqOf]

theorem JoinsTwo.append (h : JoinsTwo d nodes i) (hi : i.toNat < nodes.length) (more : List (Node w)) :
    JoinsTwo d (nodes ++ more) i := by
  have hl := h.left.trans hi
  have hr := h.right.trans hi
  constructor <;> simp only [freqOf_append, nodeIn_append, hi, hl, hr]
  exacts [h.tag, h.sym, h.left, h.right, h.distinct, h.sum, h.childOrder]

variable (halloc : (allocIdx nodes).toNat = nodes.length)

include halloc

theorem lt_length_or_eq_allocIdx {n : Node w} (hi : i.toNat < (nodes ++ [n]).length) :
    i.toNat < nodes.length ∨ i = allocIdx nodes := by
  rw [List.length_append, List.length_singleton] at hi
  obtain h | h := Nat.lt_succ_iff_lt_or_eq.1 hi
  · exact .inl h
  · exact .inr (BitVec.eq_of_toNat_eq (h.trans halloc.symm))

theorem nodeIn_append_allocIdx (d : Nat) (n : Node w) : nodeIn d (nodes ++ [n]) (allocIdx nodes) = n :=
  nodeIn_of_getElem? (by simp [halloc])

end append

section merge

variable {d : Nat} {table : Vector (BitVec w) 256} {F : Forest w} {front : List Idx} {a b : Idx}

theorem Forest.Grown.leaves_le_length (hF : F.Grown d table) :
    (presentSyms table).length ≤ F.nodes.length := by simpa using hF.seeds.length_le

/-- NEXT is the number of records written so far, which 9 bits hold (R23). -/
theorem Forest.Grown.allocIdx_toNat (hF : F.Grown d table) (hne : F.work ≠ []) :
    (allocIdx F.nodes).toNat = F.nodes.length := by
  have hle := presentSyms_length_le table
  have hcount := hF.count
  have hpos := List.length_pos_iff.2 hne
  exact (BitVec.toNat_ofNat _ _).trans (Nat.mod_eq_of_lt (by omega))

variable (hF : F.Grown d table) (hw : F.work = front ++ [b, a]) (hsum : tableSum table ≤ 2 ^ w - 1)

/-! What a merge takes and writes. -/

include hw

theorem mergeStep_nodes : (mergeStep d F).nodes = F.nodes ++ [mergedNode d F.nodes a b] := by
  rw [mergeStep_eq hw]

theorem mergeStep_work_perm : (mergeStep d F).work.Perm (allocIdx F.nodes :: front) := by
  rw [mergeStep_eq hw]
  exact insertAt_perm _ _ _

theorem mem_mergeStep_work {x : Idx} :
    x ∈ (mergeStep d F).work ↔ x = allocIdx F.nodes ∨ x ∈ front :=
  (mergeStep_work_perm hw).mem_iff.trans List.mem_cons

theorem freqOf_mergeStep_of_lt {x : Idx} (hx : x.toNat < F.nodes.length) :
    freqOf d (mergeStep d F).nodes x = freqOf d F.nodes x := by
  rw [mergeStep_nodes hw, freqOf_append hx]

include hF

/-- The last two of WORK are the two lowest (R62). -/
theorem Forest.Grown.last_two_lowest :
    freqOf d F.nodes a ≤ freqOf d F.nodes b ∧ ∀ x ∈ front, freqOf d F.nodes b ≤ freqOf d F.nodes x := by
  have h := hF.ordered
  rw [hw] at h
  obtain ⟨-, hba, hfront⟩ := List.pairwise_append.1 h
  exact ⟨by simpa using hba, fun x hx => hfront x hx b (by simp)⟩

/-- The two merged roots differ from each other and from the roots that stay. -/
theorem Forest.Grown.last_two_ne : a ≠ b ∧ ∀ x ∈ front, x ≠ a ∧ x ≠ b := by
  have h := hF.nodup
  rw [hw] at h
  obtain ⟨-, hba, hfront⟩ := List.nodup_append.1 h
  exact ⟨by simpa [eq_comm] using hba,
    fun x hx => ⟨hfront x hx a (by simp), hfront x hx b (by simp)⟩⟩

theorem Forest.Grown.last_two_written : a.toNat < F.nodes.length ∧ b.toNat < F.nodes.length :=
  ⟨hF.written a (by simp [hw]), hF.written b (by simp [hw])⟩

theorem Forest.Grown.front_written : ∀ x ∈ front, x.toNat < F.nodes.length :=
  fun x hx => hF.written x (by simp [hw, hx])

theorem Forest.Grown.next_toNat : (allocIdx F.nodes).toNat = F.nodes.length :=
  hF.allocIdx_toNat (by simp [hw])

/-- A merge's exact sum is at most the table's (R73). -/
theorem Forest.Grown.merge_sum_le :
    freqOf d F.nodes a + freqOf d F.nodes b ≤ tableSum table := by
  have h := hF.total
  simp only [hw, List.map_append, List.map_cons, List.map_nil, List.sum_append, List.sum_cons,
    List.sum_nil] at h
  omega

theorem Forest.Grown.merge_parents (i : Idx) :
    childCount (mergeStep d F).nodes i =
      if i.toNat < (mergeStep d F).nodes.length ∧ i ∉ (mergeStep d F).work then 1 else 0 := by
  have halloc := hF.next_toNat hw
  obtain ⟨hab, hne⟩ := hF.last_two_ne hw
  obtain ⟨ha, hb⟩ := hF.last_two_written hw
  have hanew : a ≠ allocIdx F.nodes := fun h => by rw [← h] at halloc; omega
  have hbnew : b ≠ allocIdx F.nodes := fun h => by rw [← h] at halloc; omega
  have hsplit : i.toNat < F.nodes.length + 1 ↔ i.toNat < F.nodes.length ∨ i = allocIdx F.nodes := by
    rw [← BitVec.toNat_inj, halloc]; omega
  rw [mergeStep_nodes hw, childCount_append_internal, hF.parents]
  simp only [mem_mergeStep_work hw, List.length_append, List.length_singleton, hsplit, hw,
    List.mem_append, List.mem_cons, List.not_mem_nil, or_false]
  by_cases hia : a = i
  · subst hia
    have : a ∉ front := fun h => (hne a h).1 rfl
    simp [ha, hanew, hab.symm, this]
  by_cases hib : b = i
  · subst hib
    have : b ∉ front := fun h => (hne b h).2 rfl
    simp [hb, hbnew, hia, this]
  by_cases hinew : i = allocIdx F.nodes
  · simp [hinew, halloc, hanew, hbnew]
  · simp [hia, hib, hinew, eq_comm (a := i)]

include hsum

/-- The merged node holds the exact sum, for it fits (R64, R73). -/
theorem Forest.Grown.mergedNode_freq :
    (mergedNode d F.nodes a b).freq.toNat = freqOf d F.nodes a + freqOf d F.nodes b := by
  have hle := hF.merge_sum_le hw
  have hpos := Nat.two_pow_pos w
  exact (BitVec.toNat_ofNat _ _).trans (Nat.mod_eq_of_lt (by omega))

theorem Forest.Grown.freqOf_mergeStep_next :
    freqOf d (mergeStep d F).nodes (allocIdx F.nodes) = freqOf d F.nodes a + freqOf d F.nodes b := by
  rw [mergeStep_nodes hw, freqOf, nodeIn_append_allocIdx (hF.next_toNat hw), hF.mergedNode_freq hw hsum]

/-! What a merge keeps. -/

theorem Forest.Grown.merge_ordered :
    (mergeStep d F).work.Pairwise (fun x y =>
      freqOf d (mergeStep d F).nodes y ≤ freqOf d (mergeStep d F).nodes x) := by
  have hnew := hF.freqOf_mergeStep_next hw hsum
  have hold : ∀ x ∈ front, freqOf d (mergeStep d F).nodes x = freqOf d F.nodes x :=
    fun x hx => freqOf_mergeStep_of_lt hw (hF.front_written hw x hx)
  have hsorted := hF.ordered
  rw [hw] at hsorted
  replace hsorted := (List.pairwise_append.1 hsorted).1
  obtain ⟨high, low, rfl, hins, hhigh, hlow⟩ := insertAt_insertPos_split
    (f := freqOf d F.nodes a + freqOf d F.nodes b) (allocIdx F.nodes) hsorted
  have hkept : (high ++ low).Pairwise (fun x y =>
      freqOf d (mergeStep d F).nodes y ≤ freqOf d (mergeStep d F).nodes x) :=
    hsorted.imp_of_mem fun hx hy h => by rwa [hold _ hx, hold _ hy]
  obtain ⟨hkhigh, hklow, hkcross⟩ := List.pairwise_append.1 hkept
  have hwork : (mergeStep d F).work = high ++ allocIdx F.nodes :: low := by rw [mergeStep_eq hw, hins]
  rw [hwork, List.pairwise_append, List.pairwise_cons]
  refine ⟨hkhigh, ⟨fun y hy => ?_, hklow⟩, fun x hx => List.forall_mem_cons.2 ⟨?_, hkcross x hx⟩⟩
  · rw [hnew, hold y (by simp [hy])]
    exact (hlow y hy).le
  · rw [hnew, hold x (by simp [hx])]
    exact hhigh x hx

theorem Forest.Grown.merge_total :
    ((mergeStep d F).work.map (freqOf d (mergeStep d F).nodes)).sum = tableSum table := by
  have hkept : front.map (freqOf d (mergeStep d F).nodes) = front.map (freqOf d F.nodes) :=
    List.map_congr_left fun x hx => freqOf_mergeStep_of_lt hw (hF.front_written hw x hx)
  rw [((mergeStep_work_perm hw).map _).sum_eq, List.map_cons, List.sum_cons, hkept,
    hF.freqOf_mergeStep_next hw hsum, ← hF.total, hw]
  simp only [List.map_append, List.map_cons, List.map_nil, List.sum_append, List.sum_cons, List.sum_nil]
  omega

/-- The new record joins the two roots that the merge took. -/
theorem Forest.Grown.merge_joins : JoinsTwo d (mergeStep d F).nodes (allocIdx F.nodes) := by
  have halloc := hF.next_toNat hw
  obtain ⟨ha, hb⟩ := hF.last_two_written hw
  have hrec : nodeIn d (mergeStep d F).nodes (allocIdx F.nodes) = mergedNode d F.nodes a b := by
    rw [mergeStep_nodes hw, nodeIn_append_allocIdx halloc]
  constructor <;> simp only [hrec, hF.freqOf_mergeStep_next hw hsum, halloc, mergedNode,
    freqOf_mergeStep_of_lt hw ha, freqOf_mergeStep_of_lt hw hb]
  case left => exact ha
  case right => exact hb
  case distinct => exact (hF.last_two_ne hw).1
  case childOrder => exact (hF.last_two_lowest hw).1

/-- The merged node is at least as heavy as every internal node before it. -/
theorem Forest.Grown.merge_heaviest {i : Idx} (hi : (presentSyms table).length ≤ i.toNat)
    (hi' : i.toNat < (mergeStep d F).nodes.length) :
    freqOf d (mergeStep d F).nodes i ≤ freqOf d F.nodes a + freqOf d F.nodes b := by
  rw [mergeStep_nodes hw] at hi'
  obtain hlt | rfl := lt_length_or_eq_allocIdx (hF.next_toNat hw) hi'
  · rw [freqOf_mergeStep_of_lt hw hlt]
    exact hF.light i hi hlt a (by simp [hw]) b (by simp [hw]) (hF.last_two_ne hw).1
  · exact (hF.freqOf_mergeStep_next hw hsum).le

end merge

/-- One merge keeps the invariant (R62 to R65). -/
theorem Forest.Grown.merge {d : Nat} {table : Vector (BitVec w) 256} {F : Forest w}
    (hF : F.Grown d table) (hsum : tableSum table ≤ 2 ^ w - 1) (hlen : 1 < F.work.length) :
    (mergeStep d F).Grown d table := by
  obtain ⟨front, b, a, hw⟩ := exists_last_two hlen
  obtain ⟨hcwork, hcnodes⟩ := mergeStep_lengths (d := d) hlen
  have hcount := hF.count
  have halloc := hF.next_toNat hw
  have hfront := hF.front_written hw
  have hnew := hF.freqOf_mergeStep_next hw hsum
  have hsplit : ∀ i : Idx, i.toNat < (mergeStep d F).nodes.length →
      i.toNat < F.nodes.length ∨ i = allocIdx F.nodes :=
    fun i hi => lt_length_or_eq_allocIdx halloc (by rwa [mergeStep_nodes hw] at hi)
  constructor
  case count => omega
  case seeds => exact hF.seeds.trans (mergeStep_nodes hw ▸ List.prefix_append _ _)
  case nodup =>
    refine (mergeStep_work_perm hw).nodup_iff.2 (List.nodup_cons.2 ⟨fun h => ?_, ?_⟩)
    · have := hfront _ h
      omega
    · exact (List.nodup_append.1 (hw ▸ hF.nodup)).1
  case written =>
    intro x hx
    obtain rfl | hx := (mem_mergeStep_work hw).1 hx
    · omega
    · exact (hfront x hx).trans (by omega)
  case newest => exact fun x hx => (mem_mergeStep_work hw).2 (.inl (BitVec.eq_of_toNat_eq (by omega)))
  case ordered => exact hF.merge_ordered hw hsum
  case total => exact hF.merge_total hw hsum
  case parents => exact hF.merge_parents hw
  case joins =>
    intro i hi hi'
    obtain hlt | rfl := hsplit i hi'
    · exact mergeStep_nodes hw ▸ (hF.joins i hi hlt).append hlt _
    · exact hF.merge_joins hw hsum
  case monotone =>
    intro i j hi hij hj
    obtain hlt | rfl := hsplit j hj
    · rw [freqOf_mergeStep_of_lt hw (hij.trans hlt), freqOf_mergeStep_of_lt hw hlt]
      exact hF.monotone i j hi hij hlt
    · rw [hnew]
      exact hF.merge_heaviest hw hsum hi (hij.trans hj)
  case light =>
    intro i hi hi' x hx y hy hxy
    have hi := hF.merge_heaviest hw hsum hi hi'
    obtain ⟨hab, hlow⟩ := hF.last_two_lowest hw
    obtain rfl | hx := (mem_mergeStep_work hw).1 hx
    · omega
    obtain rfl | hy := (mem_mergeStep_work hw).1 hy
    · omega
    have hbx := hlow x hx
    have hby := hlow y hy
    rw [← freqOf_mergeStep_of_lt hw (hfront x hx)] at hbx
    rw [← freqOf_mergeStep_of_lt hw (hfront y hy)] at hby
    omega

/-! The whole loop. -/

theorem Forest.Grown.mergeLoop {d : Nat} {table : Vector (BitVec w) 256}
    (hsum : tableSum table ≤ 2 ^ w - 1) (fuel : Nat) {F : Forest w} (hF : F.Grown d table) :
    (mergeLoop d fuel F).Grown d table := by
  induction fuel generalizing F with
  | zero => exact hF
  | succ fuel ih =>
    unfold Machine.mergeLoop
    split
    next hlen => exact ih (hF.merge hsum hlen)
    next => exact hF

theorem mergeLoop_work_length_le_one (d fuel : Nat) {F : Forest w} (hfuel : F.work.length ≤ fuel + 1) :
    (mergeLoop d fuel F).work.length ≤ 1 := by
  induction fuel generalizing F with
  | zero => exact hfuel
  | succ fuel ih =>
    unfold mergeLoop
    split
    next hlen =>
      obtain ⟨hstep, -⟩ := mergeStep_lengths (d := d) hlen
      exact ih (by omega)
    next hlen => omega

/-- Settles O25: every forest the loop reaches is one that the seeding and merges have grown. -/
theorem workStaysOrdered : Obligations.WorkStaysOrdered := by
  intro w d steps table hsum F
  have hF : F.Grown d table := (Forest.Grown.seed d table).mergeLoop hsum steps
  exact ⟨hF.ordered, fun front a b hw => hF.last_two_lowest hw⟩

end Sys2Proof.Machine
end

section
/-! PROOFS. A successful BUILD leaves a valid tree (R19, R66 to R71). -/

namespace Sys2Proof.Machine

variable {w : Nat}

/-! The byte width fits its register. -/

theorem bitlen_toNat_le (v : BitVec w) : bitlen v.toNat ≤ w := by
  unfold bitlen
  split
  · exact Nat.zero_le w
  next hv => exact (Nat.log2_lt hv).2 v.isLt

theorem fieldBytes_toNat_le (hw : w ≤ 2040) (v : BitVec w) : fieldBytes v.toNat ≤ 255 := by
  have := bitlen_toNat_le v
  unfold fieldBytes ceilDiv
  omega

/-! The finished forest. -/

section forest

variable {d : Nat} {table : Vector (BitVec w) 256}
  (hne : presentSyms table ≠ []) (hsum : tableSum table ≤ 2 ^ w - 1)

include hsum

theorem builtForest_grown : (builtForest d table).Grown d table :=
  (Forest.Grown.seed d table).mergeLoop hsum _

include hne

/-- One element is left, and it is the newest record (R66). -/
theorem builtForest_work : (builtForest d table).work = [rootOf (builtForest d table)] := by
  have hF := builtForest_grown (d := d) hsum
  have hcount := hF.count
  have hle := presentSyms_length_le table
  have hpos := List.length_pos_iff.2 hne
  have hleaves := hF.leaves_le_length
  have hone : (builtForest d table).work.length ≤ 1 := mergeLoop_work_length_le_one d _ (Nat.le_succ _)
  have hnewest := hF.newest (BitVec.ofNat 9 ((builtForest d table).nodes.length - 1))
    (by rw [BitVec.toNat_ofNat]; omega)
  obtain ⟨r, hr⟩ := List.length_eq_one_iff.1 (hone.antisymm (List.length_pos_of_mem hnewest))
  simp [rootOf, hr]

theorem builtForest_nodes_length :
    (builtForest d table).nodes.length = 2 * (presentSyms table).length - 1 := by
  have hcount := (builtForest_grown (d := d) hsum).count
  rw [builtForest_work hne hsum, List.length_singleton] at hcount
  omega

theorem builtForest_root_toNat :
    (rootOf (builtForest d table)).toNat = 2 * (presentSyms table).length - 2 := by
  have hF := builtForest_grown (d := d) hsum
  have hlen := builtForest_nodes_length (d := d) hne hsum
  have hle := presentSyms_length_le table
  have hpos := List.length_pos_iff.2 hne
  have hlast : (BitVec.ofNat 9 (2 * (presentSyms table).length - 2)).toNat =
      2 * (presentSyms table).length - 2 := (BitVec.toNat_ofNat _ _).trans (Nat.mod_eq_of_lt (by omega))
  have hmem := hF.newest (BitVec.ofNat 9 (2 * (presentSyms table).length - 2)) (by omega)
  rw [builtForest_work hne hsum, List.mem_singleton] at hmem
  rw [← hmem, hlast]

theorem builtForest_allocIdx_toNat :
    (allocIdx (builtForest d table).nodes).toNat = 2 * (presentSyms table).length - 1 := by
  rw [(builtForest_grown hsum).allocIdx_toNat (by simp [builtForest_work hne hsum]),
    builtForest_nodes_length hne hsum]

/-- TOTAL is the root's frequency (R68). -/
theorem builtForest_root_freq :
    freqOf d (builtForest d table).nodes (rootOf (builtForest d table)) = tableSum table := by
  have htotal := (builtForest_grown (d := d) hsum).total
  rw [builtForest_work hne hsum] at htotal
  simpa using htotal

end forest

/-! What a successful BUILD writes. -/

section writes

variable (b : Block w)

theorem buildWrites_eq :
    buildWrites b =
      respondOk (setTree (presentSyms b.freq).length (builtForest b.draws b.freq)
        (rootOf (builtForest b.draws b.freq))
        (nodeIn b.draws (builtForest b.draws b.freq).nodes (rootOf (builtForest b.draws b.freq))).freq
        (nodeIn b.draws (builtForest b.draws b.freq).nodes 0#9).freq b) := rfl

@[simp] theorem buildWrites_mode : (buildWrites b).mode = .built := by simp [buildWrites_eq]
@[simp] theorem buildWrites_freq : (buildWrites b).freq = b.freq := by simp [buildWrites_eq]
@[simp] theorem buildWrites_draws : (buildWrites b).draws = b.draws := by simp [buildWrites_eq]
@[simp] theorem buildWrites_err : (buildWrites b).err = b.err := by simp [buildWrites_eq]
@[simp] theorem buildWrites_errcmd : (buildWrites b).errcmd = b.errcmd := by simp [buildWrites_eq]
@[simp] theorem buildWrites_resp : (buildWrites b).resp = .ok := by simp [buildWrites_eq]
@[simp] theorem buildWrites_building : (buildWrites b).building = b.building := by
  simp [buildWrites_eq]
@[simp] theorem buildWrites_arena :
    (buildWrites b).arena = (builtForest b.draws b.freq).nodes := by simp [buildWrites_eq]
@[simp] theorem buildWrites_work : (buildWrites b).work = (builtForest b.draws b.freq).work := by
  simp [buildWrites_eq]
@[simp] theorem buildWrites_root : (buildWrites b).root = rootOf (builtForest b.draws b.freq) := by
  simp [buildWrites_eq]
@[simp] theorem buildWrites_leafcnt :
    (buildWrites b).leafcnt = BitVec.ofNat 9 (presentSyms b.freq).length := by simp [buildWrites_eq]
@[simp] theorem buildWrites_nodecnt :
    (buildWrites b).nodecnt = allocIdx (builtForest b.draws b.freq).nodes := by simp [buildWrites_eq]
@[simp] theorem buildWrites_rootLeaf :
    (buildWrites b).rootLeaf = ((presentSyms b.freq).length == 1) := by simp [buildWrites_eq]
@[simp] theorem buildWrites_nodeAt (i : Idx) :
    (buildWrites b).nodeAt i = nodeIn b.draws (builtForest b.draws b.freq).nodes i := by
  simp [Block.nodeAt]
@[simp] theorem buildWrites_freqAt (s : Sym) : (buildWrites b).freqAt s = b.freqAt s := by
  simp [Block.freqAt]
@[simp] theorem buildWrites_leafTotal :
    (buildWrites b).leafTotal = (presentSyms b.freq).length := by simp [Block.leafTotal]
theorem buildWrites_total :
    (buildWrites b).total =
      (nodeIn b.draws (builtForest b.draws b.freq).nodes (rootOf (builtForest b.draws b.freq))).freq := by
  simp [buildWrites_eq]
theorem buildWrites_maxfreq :
    (buildWrites b).maxfreq = (nodeIn b.draws (builtForest b.draws b.freq).nodes 0#9).freq := by
  simp [buildWrites_eq]
theorem buildWrites_fwbytes :
    (buildWrites b).fwbytes = BitVec.ofNat 8 (fieldBytes (buildWrites b).maxfreq.toNat) := by
  simp [buildWrites_eq]

end writes

/-! The tree. -/

section tree

variable {b : Block w} (hne : presentSyms b.freq ≠ []) (hsum : tableSum b.freq ≤ 2 ^ w - 1)

include hsum

/-- Leaf `k` is the seed order's element `k` (R59, R60). -/
theorem builtForest_leaf {i : Idx} (hi : i.toNat < (seedList b.freq).length) :
    nodeIn b.draws (builtForest b.draws b.freq).nodes i = leafNode b.freq (seedList b.freq)[i.toNat] :=
  nodeIn_of_seeds (builtForest_grown hsum).seeds hi

theorem buildWrites_leavesValid : (buildWrites b).LeavesValid := by
  constructor <;> simp only [buildWrites_leafTotal, buildWrites_nodeAt, buildWrites_freqAt,
    buildWrites_freq, ← seedList_length]
  case record =>
    intro i hi
    have hmem := mem_seedList.1 (List.getElem_mem hi)
    rw [builtForest_leaf hsum hi]
    exact ⟨rfl, rfl, Nat.pos_of_ne_zero fun h => hmem (BitVec.eq_of_toNat_eq h), rfl, rfl⟩
  case ordered =>
    intro i j hij hj
    rw [builtForest_leaf hsum (hij.trans hj), builtForest_leaf hsum hj]
    exact List.pairwise_iff_getElem.1 (seedList_pairwise b.freq) _ _ _ _ hij
  case complete =>
    intro s hs
    obtain ⟨k, hk, rfl⟩ := List.getElem_of_mem (mem_seedList (table := b.freq).2 hs)
    have hle := presentSyms_length_le b.freq
    have hidx : (BitVec.ofNat 9 k).toNat = k := by
      rw [seedList_length] at hk
      exact (BitVec.toNat_ofNat _ _).trans (Nat.mod_eq_of_lt (by omega))
    refine ⟨BitVec.ofNat 9 k, hidx.trans_lt hk, ?_⟩
    rw [builtForest_leaf hsum (hidx.trans_lt hk)]
    simp [leafNode, hidx]

include hne

/-- MAXFREQ is the first leaf's frequency, and no entry is larger (R68). -/
theorem buildWrites_maxfreq_spec :
    (∀ s : Sym, (b.freqAt s).toNat ≤ (buildWrites b).maxfreq.toNat) ∧
      ∃ s : Sym, b.freqAt s = (buildWrites b).maxfreq := by
  have hpos : 0 < (seedList b.freq).length := by simpa [List.length_pos_iff] using hne
  have hmax : (buildWrites b).maxfreq = b.freqAt (seedList b.freq)[0] := by
    rw [buildWrites_maxfreq, builtForest_leaf (i := 0#9) hsum hpos]
    rfl
  refine ⟨fun s => ?_, _, hmax.symm⟩
  rw [hmax]
  by_cases hs : b.freqAt s = 0#w
  · simp [hs]
  · obtain ⟨k, hk, rfl⟩ := List.getElem_of_mem (mem_seedList (table := b.freq).2 hs)
    obtain rfl | hkpos := Nat.eq_zero_or_pos k
    · exact le_rfl
    · have h := List.pairwise_iff_getElem.1 (seedList_pairwise b.freq) 0 k hpos hk hkpos
      rw [seedBefore_iff_toNat] at h
      unfold Block.freqAt
      omega

theorem buildWrites_resultsValid (hw : w ≤ 2040) : (buildWrites b).ResultsValid := by
  have hle := presentSyms_length_le b.freq
  obtain ⟨hbound, hheld⟩ := buildWrites_maxfreq_spec hne hsum
  constructor <;> simp only [buildWrites_leafTotal, buildWrites_freqAt, buildWrites_freq,
    buildWrites_arena, buildWrites_leafcnt, buildWrites_nodecnt, buildWrites_root, buildWrites_rootLeaf,
    buildWrites_work, buildWrites_fwbytes]
  case nonempty => exact List.length_pos_iff.2 hne
  case written => exact builtForest_nodes_length hne hsum
  case leafcnt => exact (BitVec.toNat_ofNat _ _).trans (Nat.mod_eq_of_lt (by omega))
  case nodecnt => exact builtForest_allocIdx_toNat hne hsum
  case root => exact builtForest_root_toNat hne hsum
  case total => exact buildWrites_total b ▸ builtForest_root_freq hne hsum
  case maxfreqBound => exact hbound
  case maxfreqHeld => exact hheld
  case fwbytes =>
    have hbytes := fieldBytes_toNat_le hw (buildWrites b).maxfreq
    exact (BitVec.toNat_ofNat _ _).trans (Nat.mod_eq_of_lt (by omega))
  case rootLeaf => simp
  case work => exact builtForest_work hne hsum

theorem buildWrites_internalsValid : (buildWrites b).InternalsValid := by
  have hF := builtForest_grown (d := b.draws) hsum
  constructor <;> simp only [buildWrites_leafTotal, buildWrites_nodeAt, buildWrites_arena,
    buildWrites_root, ← builtForest_nodes_length (d := b.draws) hne hsum]
  case record =>
    intro i hi hi'
    obtain ⟨htag, hsym, hleft, hright, hdistinct, -, -⟩ := hF.joins i hi hi'
    exact ⟨htag, hsym, hleft, hright, hdistinct⟩
  case sum => exact fun i hi hi' => (hF.joins i hi hi').sum
  case childOrder => exact fun i hi hi' => (hF.joins i hi hi').childOrder
  case oneParent =>
    intro i hi
    rw [hF.parents]
    simp only [builtForest_work hne hsum, List.mem_singleton, hi, true_and]
    by_cases h : i = rootOf (builtForest b.draws b.freq) <;> simp [h]
  case monotone => exact hF.monotone

theorem buildWrites_treeValid (hw : w ≤ 2040) : (buildWrites b).TreeValid :=
  ⟨buildWrites_resultsValid hne hsum hw, buildWrites_leavesValid hsum, buildWrites_internalsValid hne hsum⟩

end tree

theorem presentSyms_ne_nil {table : Vector (BitVec w) 256} :
    presentSyms table ≠ [] ↔ ∃ s : Sym, tableAt table s ≠ 0#w := by
  simp [List.eq_nil_iff_forall_not_mem, mem_presentSyms]

/-- A BUILD in IDLE of a table that passes the input checks (R56, R57). -/
theorem exec_build_of_checks {c : Config} {b : Block c.freqBits} (hm : b.mode = .idle)
    (hne : presentSyms b.freq ≠ []) (hsum : tableSum b.freq ≤ 2 ^ c.freqBits - 1) :
    exec .build ⟨c, b⟩ = .next ⟨c, buildWrites b⟩ := by
  rw [exec_mk, ← buildBlock_builds hm hne hsum]
  rfl

/-- Settles O18, by the invariant that the seeding meets and every merge keeps (`Forest.Grown`). -/
theorem buildYieldsValidTree : Obligations.BuildYieldsValidTree := by
  intro c b hm hex hsum
  have hne : presentSyms b.freq ≠ [] := presentSyms_ne_nil.2 hex
  exact ⟨buildWrites b, exec_build_of_checks hm hne hsum, buildWrites_treeValid hne hsum c.le, rfl⟩

/-- With one leaf the seeding is the whole build (R67). -/
theorem builtForest_nodes_of_one {d : Nat} {table : Vector (BitVec w) 256}
    (hone : (presentSyms table).length = 1) (hsum : tableSum table ≤ 2 ^ w - 1) :
    ∃ s, tableAt table s ≠ 0#w ∧ (builtForest d table).nodes = [leafNode table s] := by
  have hne : presentSyms table ≠ [] := by rintro h; simp [h] at hone
  have hlen := builtForest_nodes_length (d := d) hne hsum
  obtain ⟨s, hs⟩ := List.length_eq_one_iff.1 ((seedList_length table).trans hone)
  have hseeds := (builtForest_grown (d := d) hsum).seeds.eq_of_length (by simp [hlen, hone])
  exact ⟨s, mem_seedList.1 (by simp [hs]), by rw [← hseeds, seedForest_nodes, hs]; rfl⟩

/-- Settles O20: the results are the valid tree's, and one leaf takes no merge. -/
theorem oneLeafNeedsNoMerge : Obligations.OneLeafNeedsNoMerge := by
  intro c b n hm hn hpos hsum
  replace hn : n = (presentSyms b.freq).length := hn
  have hne : presentSyms b.freq ≠ [] := List.length_pos_iff.1 (hn ▸ hpos)
  have hvalid := buildWrites_resultsValid (b := b) hne hsum c.le
  obtain ⟨-, -, -, hnodecnt, hroot, -, -, -, -, hrootLeaf, hwork⟩ := hvalid
  rw [buildWrites_leafTotal, ← hn] at hnodecnt hroot hrootLeaf
  refine ⟨buildWrites b, exec_build_of_checks hm hne hsum, buildWrites_mode b, hnodecnt, hwork, ?_, ?_⟩
  · exact fun htwo => ⟨hroot, Bool.eq_false_iff.2 (mt hrootLeaf.1 (by omega))⟩
  · rintro rfl
    obtain ⟨s, hs, hnodes⟩ := builtForest_nodes_of_one (d := b.draws) hn.symm hsum
    exact ⟨BitVec.eq_of_toNat_eq hroot, BitVec.eq_of_toNat_eq hnodecnt, hrootLeaf.2 rfl, s, hs,
      (buildWrites_arena b).trans hnodes⟩

end Sys2Proof.Machine
end

section
/-! PROOFS. The words of CLEAR and of BUILD (R46, R50). -/

namespace Sys2Proof.Machine

theorem toNat_append_eq_add {m n : Nat} (x : BitVec m) (y : BitVec n) :
    (x ++ y).toNat = x.toNat * 2 ^ n + y.toNat := by
  rw [BitVec.toNat_append, ← Nat.shiftLeft_add_eq_or_of_lt y.isLt, Nat.shiftLeft_eq]

/-- A word as a number, from its three fields (R43). -/
theorem toNat_eq_fields (v : CmdWord) :
    v.toNat = (opField v).toNat * 4096 + (rsvField v).toNat * 512 + (argField v).toNat := by
  simp only [opField, rsvField, argField, BitVec.extractLsb'_toNat, Nat.shiftRight_eq_div_pow]
  omega

/-! The word of each form, where the reserved field is 0 (R45, R46). -/

section forms

variable {v : CmdWord} (hrsv : rsvField v = 0#3)

include hrsv

theorem noneForm_word {u : CmdWord} (hop : u.toNat = (opField v).toNat * 4096)
    (harg : argField v = 0#9) : u = v := by
  have hv := toNat_eq_fields v
  rw [hrsv, harg, BitVec.toNat_ofNat, BitVec.toNat_ofNat] at hv
  exact BitVec.eq_of_toNat_eq (by omega)

theorem idxForm_word {u : BitVec 7} (hop : u.toNat = (opField v).toNat * 8) : u ++ argField v = v := by
  have hv := toNat_eq_fields v
  rw [hrsv, BitVec.toNat_ofNat] at hv
  apply BitVec.eq_of_toNat_eq
  rw [toNat_append_eq_add]
  omega

theorem symForm_word {u : BitVec 8} (hop : u.toNat = (opField v).toNat * 16)
    (harg : (argField v).extractLsb' 8 1 = 0#1) : u ++ (argField v).extractLsb' 0 8 = v := by
  have hv := toNat_eq_fields v
  have harg := congrArg BitVec.toNat harg
  rw [hrsv, BitVec.toNat_ofNat] at hv
  apply BitVec.eq_of_toNat_eq
  rw [toNat_append_eq_add]
  simp only [BitVec.extractLsb'_toNat, BitVec.toNat_ofNat, Nat.shiftRight_eq_div_pow] at harg ⊢
  omega

end forms

theorem noneForm_eq_instr {arg : BitVec 9} {i j : Instr} :
    noneForm arg i = .instr j ↔ arg = 0#9 ∧ i = j := by
  unfold noneForm; split <;> simp_all

theorem symForm_eq_instr {arg : BitVec 9} {mk : Sym → Instr} {j : Instr} :
    symForm arg mk = .instr j ↔ arg.extractLsb' 8 1 = 0#1 ∧ mk (arg.extractLsb' 0 8) = j := by
  unfold symForm; split <;> simp_all

theorem idxForm_eq_instr {arg : BitVec 9} {mk : Idx → Instr} {j : Instr} :
    idxForm arg mk = .instr j ↔ mk arg = j := by simp [idxForm]

/-- The decoder reads an instruction only from that instruction's own word (R46, R50). -/
theorem encode_of_decode {v : CmdWord} {i : Instr} (h : decode v = .instr i) : encode i = v := by
  unfold decode at h
  split at h
  · cases h
  next hrsv =>
    replace hrsv := not_not.1 hrsv
    split at h <;> rename_i hop
    case h_1 | h_4 =>
      obtain ⟨harg, rfl⟩ := noneForm_eq_instr.1 h
      exact noneForm_word hrsv (by rw [hop]; rfl) harg
    case h_2 | h_3 | h_7 =>
      obtain ⟨harg, rfl⟩ := symForm_eq_instr.1 h
      exact symForm_word hrsv (by rw [hop]; rfl) harg
    case h_5 | h_6 =>
      obtain rfl := idxForm_eq_instr.1 h
      exact idxForm_word hrsv (by rw [hop]; rfl)
    case h_8 => cases h

theorem decode_eq_clear {v : CmdWord} : decode v = .instr .clear ↔ v = 0x0000#16 :=
  ⟨fun h => (encode_of_decode h).symm, fun h => h ▸ by decide⟩

theorem decode_eq_build {v : CmdWord} : decode v = .instr .build ↔ v = 0x3000#16 :=
  ⟨fun h => (encode_of_decode h).symm, fun h => h ▸ by decide⟩

end Sys2Proof.Machine
end

section
/-! PROOFS. What an accepted word can do, and what a step can do, said once; the rules for STATE and RESP follow
(R16, R25). -/

namespace Sys2Proof.Machine

variable {w : Nat} {b t : Block w}

/-! The legality table (R85). -/

theorem legality_executes_iff {i : Instr} {m : Mode} : legality i m = .executes ↔
    match i with
    | .clear => True
    | .setFreq _ | .loadPair _ | .build => m = .idle
    | .readNode _ | .readLeaf _ => m = .built
    | .readFreq _ => m ≠ .error := by
  cases i <;> cases m <;> simp [legality]

theorem ne_error_of_legality_badState {i : Instr} {m : Mode} (h : legality i m = .badState) :
    m ≠ .error := by
  rintro rfl
  cases i <;> simp [legality] at h

/-! The accepted word. -/

/-- What an accepted word that decodes to `d` can do to the block: its own effect, the error entry (R82), or
nothing but RESP (R92). -/
inductive Answer (d : Decoded) (b : Block w) : Block w → Prop
  | clears (hd : d = .instr .clear) : Answer d b (emptied b)
  | raises (code : ErrCode) (hcode : code ≠ .ok) (hmode : b.mode ≠ .error) (hd : d ≠ .instr .clear) :
      Answer d b (raiseError code b)
  | ignores (hmode : b.mode = .error) : Answer d b (ignored b)
  | writesFreq (sym : Sym) (v : BitVec w) (hmode : b.mode = .idle) :
      Answer d b (respondOk (writeFreq sym v b))
  | builds (hd : d = .instr .build) (hmode : b.mode = .idle) (hne : presentSyms b.freq ≠ [])
      (hsum : tableSum b.freq ≤ 2 ^ w - 1) : Answer d b (buildWrites b)
  | readsRecord (tag : Tag) (sym : Sym) (freq : BitVec w) (left right idx : Idx)
      (hmode : b.mode = .built) : Answer d b (respondOk (setReadOut tag sym freq left right idx b))
  | readsFreq (sym : Sym) (v : BitVec w) (hmode : b.mode ≠ .error) :
      Answer d b (respondOk (setSymFreq sym v b))

/-- The state check answers by itself where the command does not execute (R85, R92). -/
theorem gate_answer {i : Instr} {body : Block w} (hi : i ≠ .clear)
    (hbody : legality i b.mode = .executes → Answer (.instr i) b body) :
    Answer (.instr i) b (gate (legality i b.mode) b body) := by
  obtain ⟨hv, h⟩ | ⟨hv, h⟩ | ⟨hv, h⟩ := gate_cases (legality i b.mode) b body <;> rw [h]
  · exact hbody hv
  · exact .raises _ (by decide) (ne_error_of_legality_badState hv) (by simpa using hi)
  · exact .ignores (legality_eq_ignored hv)

theorem effect_answer (i : Instr) (b : Block w) : Answer (.instr i) b (effect i b) := by
  cases i with
  | clear => exact .clears rfl
  | setFreq sym =>
    exact gate_answer (by simp) fun h => .writesFreq sym b.din (legality_executes_iff.1 h)
  | loadPair sym =>
    refine gate_answer (by simp) fun h => ?_
    replace h : b.mode = .idle := legality_executes_iff.1 h
    obtain ⟨-, h'⟩ | ⟨-, -, h'⟩ | ⟨-, -, h'⟩ := loadPairBody_cases sym b <;> rw [h']
    · exact .raises _ (by decide) (by simp [h]) (by simp)
    · exact .raises _ (by decide) (by simp [h]) (by simp)
    · exact .writesFreq sym b.din h
  | build =>
    refine gate_answer (by simp) fun h => ?_
    replace h : b.mode = .idle := legality_executes_iff.1 h
    obtain ⟨-, h'⟩ | ⟨-, -, h'⟩ | ⟨hne, hsum, h'⟩ := buildBody_cases b <;> rw [h']
    · exact .raises _ (by decide) (by simp [h]) (by simp)
    · exact .raises _ (by decide) (by simp [h]) (by simp)
    · exact .builds rfl h hne hsum
  | readNode idx =>
    refine gate_answer (by simp) fun h => ?_
    replace h : b.mode = .built := legality_executes_iff.1 h
    unfold readNodeBody
    split
    · exact .raises _ (by decide) (by simp [h]) (by simp)
    · exact .readsRecord _ _ _ _ _ _ h
  | readLeaf k =>
    refine gate_answer (by simp) fun h => ?_
    replace h : b.mode = .built := legality_executes_iff.1 h
    unfold readLeafBody
    split
    · exact .raises _ (by decide) (by simp [h]) (by simp)
    · exact .readsRecord _ _ _ _ _ _ h
  | readFreq sym =>
    exact gate_answer (by simp) fun h => .readsFreq sym _ (legality_executes_iff.1 h)

theorem sampledEffect_answer (b : Block w) : Answer (decode b.cmd) b (sampledEffect b) := by
  unfold sampledEffect
  cases hd : decode b.cmd with
  | instr i => exact effect_answer i b
  | illegal why =>
    by_cases hm : b.mode = .error
    · simp only [illegalWord_error hm]
      exact .ignores hm
    · simp only [illegalWord_raises hm]
      exact .raises _ (by decide) hm (by simp)

/-- IDLE is entered only by CLEAR. -/
theorem Answer.clear_of_enters_idle {d : Decoded} (h : Answer d b t) (hb : b.mode ≠ .idle)
    (ht : t.mode = .idle) : d = .instr .clear := by
  cases h with
  | clears hd => exact hd
  | _ => simp_all

/-- BUILT is entered only from IDLE, by BUILD. -/
theorem Answer.build_of_enters_built {d : Decoded} (h : Answer d b t) (hb : b.mode ≠ .built)
    (ht : t.mode = .built) : b.mode = .idle ∧ d = .instr .build := by
  cases h with
  | builds hd hmode => exact ⟨hmode, hd⟩
  | _ => simp_all

theorem Answer.resp_ok {d : Decoded} (h : Answer d b t) (ht : t.mode ≠ .error) : t.resp = .ok := by
  cases h with
  | raises | ignores => simp_all
  | _ => simp

theorem Answer.resp_raised {d : Decoded} (h : Answer d b t) (hb : b.mode ≠ .error)
    (ht : t.mode = .error) : t.resp = t.err ∧ t.resp ≠ .ok := by
  cases h with
  | raises code hcode => exact ⟨rfl, hcode⟩
  | _ => simp_all

theorem Answer.resp_ignored {d : Decoded} (h : Answer d b t) (hb : b.mode = .error)
    (ht : t.mode = .error) : t.resp = b.err := by
  cases h with
  | ignores => rfl
  | _ => simp_all

/-! The step. -/

theorem busy_eq_false_iff : b.busy = false ↔ b.building = none := by simp [Block.busy]

/-- One transaction is a reset, the completion of a BUILD, an accepted word, or nothing but the host's next
sample (R9, R99, R103, R105). -/
inductive Transaction (b : Block w) : Block w → Prop
  | resets {p : PortIn w} {rest : List (PortIn w)} (hhost : b.host = p :: rest) (hrst : p.rst = true) :
      Transaction b (withHost rest (resetBlock b))
  | completes (hbusy : b.busy = true) : Transaction b (effect .build (withBuilding none b))
  | accepts {p : PortIn w} {rest : List (PortIn w)} (hidle : b.building = none)
      (hhost : b.host = p :: rest) (hvalid : p.cmdValid = true) :
      Transaction b (sampledEffect (sample p (withHost rest b)))
  | passes (hidle : b.building = none) (rest : List (PortIn w)) : Transaction b (withHost rest b)

theorem stepBlock_transaction (b : Block w) : Transaction b (stepBlock b) := by
  unfold stepBlock
  split
  next hhost =>
    split
    next hbusy => exact .completes hbusy
    next hbusy =>
      exact .passes (busy_eq_false_iff.1 (by simpa using hbusy)) b.host
  next p rest hhost =>
    split
    next hrst => exact .resets hhost hrst
    next =>
      split
      next hbusy => exact .completes hbusy
      next hbusy =>
        have hidle := busy_eq_false_iff.1 (by simpa using hbusy)
        split
        next hvalid => exact .accepts hidle hhost hvalid
        next => exact .passes hidle rest

/-- Settles O44: only an accepted CLEAR or a reset gives IDLE, and only an accepted or completed BUILD gives
BUILT. -/
theorem stateTransitions : Obligations.StateTransitions := by
  intro c b t hstep
  rw [step_mk, next_inj] at hstep
  have h := stepBlock_transaction b
  rw [hstep] at h
  cases h with
  | @resets p rest hhost hrst =>
    exact ⟨fun _ _ => ⟨p, rest, hhost, .inl hrst⟩, fun _ ht => by simp at ht⟩
  | completes hbusy =>
    have ha := effect_answer .build (withBuilding none b)
    exact ⟨fun hb ht => absurd (ha.clear_of_enters_idle hb ht) (by simp),
      fun hb ht => ⟨(ha.build_of_enters_built hb ht).1, .inl hbusy⟩⟩
  | @accepts p rest hidle hhost hvalid =>
    have ha := sampledEffect_answer (sample p (withHost rest b))
    refine ⟨fun hb ht => ?_, fun hb ht => ?_⟩
    · exact ⟨p, rest, hhost, .inr ⟨hvalid, decode_eq_clear.1 (ha.clear_of_enters_idle hb ht)⟩⟩
    · obtain ⟨hmode, hd⟩ := ha.build_of_enters_built hb ht
      exact ⟨hmode, .inr ⟨p, rest, hhost, hvalid, decode_eq_build.1 hd⟩⟩
  | passes hidle rest => exact ⟨fun hb ht => absurd ht hb, fun hb ht => absurd ht hb⟩

theorem stepBlock_of_rst {p : PortIn w} {rest : List (PortIn w)} (hhost : b.host = p :: rest)
    (hrst : p.rst = true) : stepBlock b = withHost rest (resetBlock b) := by
  simp [stepBlock, hhost, hrst]

/-- Settles O45: each answer writes RESP with its result. -/
theorem respIsTheResult : Obligations.RespIsTheResult := by
  refine ⟨fun c b t hrun => ?_, fun c b t p rest hhost hrst hstep => ?_⟩
  · rw [runSampled_mk, next_inj] at hrun
    have ha := sampledEffect_answer b
    rw [hrun] at ha
    exact ⟨ha.resp_ok, ha.resp_raised, ha.resp_ignored⟩
  · rw [step_mk, next_inj, stepBlock_of_rst hhost hrst] at hstep
    rw [← hstep, withHost_resp, resetBlock_resp]
    rfl

end Sys2Proof.Machine
end

section
/-! PROOFS. The ports, the status word and the reset values (R15, R30, R42), and the observation (R111). -/

namespace Sys2Proof.Machine

variable {w : Nat} {b : Block w}

/-! Outside BUSY the ports show the registers. -/

theorem shown_eq (h : b.building = none) {k : Nat} (port : BusyPort) (v : BitVec k) :
    b.shown port v = v := by simp [Block.shown, h]

theorem stateField_eq (h : b.building = none) : b.stateField = b.mode.code := by
  simp [Block.stateField, Block.busy, h]

theorem errField_eq (h : b.building = none) : b.errField = b.err.code := by
  simp [Block.errField, Block.busy, h]

theorem errorOut_iff (h : b.building = none) : b.errorOut = true ↔ b.mode = .error := by
  unfold Block.errorOut
  rw [stateField_eq h]
  cases b.mode <;> decide

/-- Settles O54: each port is its register's value where no BUILD is in progress. -/
theorem portsCarryTheRegisters : Obligations.PortsCarryTheRegisters := by
  intro c b rst h
  refine ⟨errorOut_iff h, rfl, shown_eq h _ _, shown_eq h _ _, shown_eq h _ _, shown_eq h _ _,
    shown_eq h _ _, shown_eq h _ _, ?_, rfl, ?_, rfl, rfl, rfl, rfl, rfl⟩
  · refine (shown_eq h _ _).trans ?_
    cases b.resp <;> rfl
  · change b.rTag.bit = _
    cases b.rTag <;> rfl

/-! The status word. -/

theorem statusWord_fields (b : Block w) :
    b.statusWord.extractLsb' 0 2 = b.stateField ∧ b.statusWord.extractLsb' 2 1 = b.rootLeafField ∧
      b.statusWord.extractLsb' 3 1 = 0#1 ∧ b.statusWord.extractLsb' 4 4 = b.errField ∧
      b.statusWord.extractLsb' 8 8 = 0#8 := by
  unfold Block.statusWord
  generalize b.errField = e, b.rootLeafField = r, b.stateField = s
  revert e r s; decide +kernel

/-- ERR reads 0 while BUSY and while STATE is not ERROR (R18, R105). -/
theorem errField_eq_zero (hinv : b.Inv) (hs : b.stateField ≠ 3#2) : b.errField = 0#4 := by
  cases hb : b.building with
  | some left => simp [Block.errField, Block.busy, hb]
  | none =>
    rw [stateField_eq hb] at hs
    have hm : b.mode ≠ .error := fun h => hs (by rw [h]; rfl)
    rw [errField_eq hb, hinv.err.2 hm]
    rfl

/-- Settles O46: each field of the status word is the field that the model builds it from. -/
theorem statusLayout : Obligations.StatusLayout := by
  intro c b
  obtain ⟨hstate, hroot, hlow, herr, hhigh⟩ := statusWord_fields b
  rw [hstate, hroot, herr]
  refine ⟨fun h => ⟨?_, ?_, ?_⟩, fun left h => ?_, hlow, hhigh, errField_eq_zero⟩
  · rw [stateField_eq h]
    cases b.mode <;> rfl
  · exact shown_eq h _ _
  · rw [errField_eq h]
    cases b.err <;> rfl
  · simp [Block.stateField, Block.busy, h, busyCode]

/-! Reset, and the outcomes. -/

/-- Settles O5: the reset value of every register is the one R30 gives. -/
theorem resetRegisterValues : Obligations.ResetRegisterValues := by
  intro c
  have hstatus : (Block.resetValue c.freqBits).statusWord = 0x0000#16 := by
    have hbuild : (Block.resetValue c.freqBits).building = none := rfl
    rw [Block.statusWord, errField_eq hbuild, stateField_eq hbuild, Block.rootLeafField, shown_eq hbuild]
    simp [Block.resetValue, ErrCode.code, Mode.code, bit]
  have hfreq : ∀ s : Sym, (Block.resetValue c.freqBits).freqAt s = 0#_ := tableAt_replicate _
  exact ⟨Block.resetValue c.freqBits, rfl, hstatus, rfl, rfl, rfl, rfl, rfl, rfl, rfl, rfl, rfl, rfl, rfl,
    rfl, rfl, rfl, hfreq, rfl, rfl⟩

/-- Settles O42: every outcome is a next state of the same configuration. -/
theorem everyCommandHasANextState : Obligations.EveryCommandHasANextState := by
  rintro ⟨c, b⟩
  exact ⟨⟨_, step_mk c b, rfl⟩, ⟨_, clockEdge_mk c b, rfl⟩, fun i => ⟨_, exec_mk i c b, rfl⟩⟩

/-! The reads of the observation, state by state (R75, R77, R85). -/

theorem readFreqBlock_executes (hm : b.mode ≠ .error) (sym : Sym) :
    readFreqBlock sym b = readFreqBody sym b := by
  have h : legality (.readFreq sym) b.mode = .executes := legality_executes_iff.2 hm
  rw [readFreqBlock, h, gate_executes]

theorem readFreqBlock_ignored (hm : b.mode = .error) (sym : Sym) : readFreqBlock sym b = ignored b := by
  rw [readFreqBlock, hm, legality_error (by simp), gate_ignored]

theorem readNodeBlock_executes (hm : b.mode = .built) (idx : Idx) :
    readNodeBlock idx b = readNodeBody idx b := by
  have h : legality (.readNode idx) b.mode = .executes := legality_executes_iff.2 hm
  rw [readNodeBlock, h, gate_executes]

theorem readNodeBlock_badState (hm : b.mode = .idle) (idx : Idx) :
    readNodeBlock idx b = raiseError .badState b := by
  simp [readNodeBlock, hm, legality]

theorem readNodeBlock_ignored (hm : b.mode = .error) (idx : Idx) : readNodeBlock idx b = ignored b := by
  rw [readNodeBlock, hm, legality_error (by simp), gate_ignored]

theorem observeFreq_eq (hm : b.mode ≠ .error) (sym : Sym) : observeFreq b sym = some (b.freqAt sym) := by
  simp [observeFreq, readFreqBlock_executes hm, readFreqBody]

theorem observeFreq_error (hm : b.mode = .error) (herr : b.err ≠ .ok) (sym : Sym) :
    observeFreq b sym = none := by
  simp [observeFreq, readFreqBlock_ignored hm, herr]

theorem observeNode_built (hm : b.mode = .built) (idx : Idx) :
    observeNode b idx = if idx.toNat < b.nodecnt.toNat then some (b.nodeAt idx) else none := by
  by_cases hlt : idx.toNat < b.nodecnt.toNat
  · simp [observeNode, readNodeBlock_executes hm, readNodeBody, Nat.not_le.2 hlt, hlt]
  · simp [observeNode, readNodeBlock_executes hm, readNodeBody_fails (Nat.not_lt.1 hlt), hlt]

theorem observeNode_idle (hm : b.mode = .idle) (idx : Idx) : observeNode b idx = none := by
  simp [observeNode, readNodeBlock_badState hm]

theorem observeNode_error (hm : b.mode = .error) (herr : b.err ≠ .ok) (idx : Idx) :
    observeNode b idx = none := by
  simp [observeNode, readNodeBlock_ignored hm, herr]

theorem observe_table (b : Block w) : (observe b).table = allSyms.map (observeFreq b) := rfl

theorem observe_nodes (b : Block w) :
    (observe b).nodes = (List.range 512).map (fun k => observeNode b (BitVec.ofNat 9 k)) := by
  rw [observe]

theorem mem_observe_nodes {x : Option (Node w)} (h : x ∈ (observe b).nodes) :
    ∃ i : Idx, observeNode b i = x := by
  rw [observe_nodes, List.mem_map] at h
  obtain ⟨k, -, hk⟩ := h
  exact ⟨_, hk⟩

theorem observe_nodes_getElem? (b : Block w) (i : Idx) :
    (observe b).nodes[i.toNat]? = some (observeNode b i) := by
  have := i.isLt
  simp [observe_nodes, List.getElem?_range this]

/-- Settles O48: a read that answers OK shows the stored value, and every other read shows nothing. -/
theorem observationShowsDefinedStorage : Obligations.ObservationShowsDefinedStorage := by
  intro c b
  refine ⟨fun hm => ?_, fun hm i => ?_, fun hm => ?_, fun hinv hm => ?_⟩
  · rw [observe_table, funext (observeFreq_eq hm)]
  · rw [observe_nodes_getElem?, observeNode_built hm]
  · intro x hx
    obtain ⟨i, rfl⟩ := mem_observe_nodes hx
    exact observeNode_idle hm i
  · have herr : b.err ≠ .ok := fun h => hinv.err.1 h hm
    refine ⟨fun x hx => ?_, fun x hx => ?_⟩
    · rw [observe_table] at hx
      obtain ⟨s, -, rfl⟩ := List.mem_map.1 hx
      exact observeFreq_error hm herr s
    · obtain ⟨i, rfl⟩ := mem_observe_nodes hx
      exact observeNode_error hm herr i

end Sys2Proof.Machine
end

section
/-! PROOFS. The invariant: reset meets it, and every transaction and every clock edge keeps it (R18, R19, R26,
R71, R82, R104, R105). -/

namespace Sys2Proof.Machine

variable {w : Nat} {b t : Block w}

/-! What a tree's validity depends on. -/

/-- The two blocks hold the same records and show the same results (R19, R21). -/
structure SameResults (b t : Block w) : Prop where
  leafcnt : t.leafcnt = b.leafcnt
  nodecnt : t.nodecnt = b.nodecnt
  root : t.root = b.root
  total : t.total = b.total
  maxfreq : t.maxfreq = b.maxfreq
  fwbytes : t.fwbytes = b.fwbytes
  rootLeaf : t.rootLeaf = b.rootLeaf
  arena : t.arena = b.arena

theorem SameResults.noTree (hs : SameResults b t) (h : b.NoTree) : t.NoTree where
  leafcnt := hs.leafcnt.trans h.leafcnt
  nodecnt := hs.nodecnt.trans h.nodecnt
  root := hs.root.trans h.root
  total := hs.total.trans h.total
  maxfreq := hs.maxfreq.trans h.maxfreq
  fwbytes := hs.fwbytes.trans h.fwbytes
  rootLeaf := hs.rootLeaf.trans h.rootLeaf
  arena := hs.arena.trans h.arena

/-- A valid tree has no unwritten record, so the free values do not matter. -/
theorem SameResults.treeValid (hs : SameResults b t) (hfreq : t.freq = b.freq) (hwork : t.work = b.work)
    (h : b.TreeValid) : t.TreeValid := by
  obtain ⟨hres, hleaves, hint⟩ := h
  have hn : t.leafTotal = b.leafTotal := by rw [Block.leafTotal, hfreq, Block.leafTotal]
  have hfreqAt : ∀ s, t.freqAt s = b.freqAt s := fun s => by rw [Block.freqAt, hfreq, Block.freqAt]
  have hnode : ∀ i : Idx, i.toNat < 2 * b.leafTotal - 1 → t.nodeAt i = b.nodeAt i := by
    intro i hi
    rw [Block.nodeAt, Block.nodeAt, hs.arena]
    exact nodeIn_draw (hres.written ▸ hi) _ _
  refine ⟨?_, ?_, ?_⟩
  · constructor <;> simp only [hn, hfreqAt, hfreq, hwork, hs.leafcnt, hs.nodecnt, hs.root, hs.total,
      hs.maxfreq, hs.fwbytes, hs.rootLeaf, hs.arena]
    exacts [hres.nonempty, hres.written, hres.leafcnt, hres.nodecnt, hres.root, hres.total,
      hres.maxfreqBound, hres.maxfreqHeld, hres.fwbytes, hres.rootLeaf, hres.work]
  · have hleaf : ∀ i : Idx, i.toNat < b.leafTotal → t.nodeAt i = b.nodeAt i :=
      fun i hi => hnode i (by omega)
    constructor <;> simp only [hn, hfreqAt, hfreq]
    case record => exact fun i hi => hleaf i hi ▸ hleaves.record i hi
    case ordered =>
      intro i j hij hj
      rw [hleaf i (hij.trans hj), hleaf j hj]
      exact hleaves.ordered i j hij hj
    case complete =>
      intro s hne
      obtain ⟨i, hi, rfl⟩ := hleaves.complete s hne
      exact ⟨i, hi, by rw [hleaf i hi]⟩
  · have hchildren : ∀ i : Idx, b.leafTotal ≤ i.toNat → i.toNat < 2 * b.leafTotal - 1 →
        t.nodeAt (b.nodeAt i).left = b.nodeAt (b.nodeAt i).left ∧
        t.nodeAt (b.nodeAt i).right = b.nodeAt (b.nodeAt i).right := by
      intro i hi hi'
      obtain ⟨-, -, hleft, hright, -⟩ := hint.record i hi hi'
      exact ⟨hnode _ (hleft.trans hi'), hnode _ (hright.trans hi')⟩
    constructor <;> simp only [hn, hs.arena, hs.root]
    case record => exact fun i hi hi' => hnode i hi' ▸ hint.record i hi hi'
    case sum =>
      intro i hi hi'
      obtain ⟨hleft, hright⟩ := hchildren i hi hi'
      rw [hnode i hi', hleft, hright]
      exact hint.sum i hi hi'
    case childOrder =>
      intro i hi hi'
      obtain ⟨hleft, hright⟩ := hchildren i hi hi'
      rw [hnode i hi', hleft, hright]
      exact hint.childOrder i hi hi'
    case oneParent => exact hint.oneParent
    case monotone =>
      intro i j hi hij hj
      rw [hnode i (hij.trans hj), hnode j hj]
      exact hint.monotone i j hi hij hj

/-! The ways to meet the invariant again. -/

/-- An empty block that is not BUSY is safe: what reset and CLEAR leave (R30, R81). -/
theorem Block.Inv.of_empty (hmode : b.mode = .idle) (herr : b.err = .ok) (hresp : b.resp = .ok)
    (herrcmd : b.errcmd = 0x0000#16) (htree : b.NoTree)
    (hread : b.rTag = .leaf ∧ b.rLeft = nilIdx ∧ b.rRight = nilIdx ∧ b.rIdx = nilIdx)
    (hbusy : b.building = none) : b.Inv where
  resp := hresp.trans herr.symm
  err := by simp [herr, hmode]
  errcmd := by simp [herrcmd, hmode]
  idle _ := htree
  idleReadOut _ := hread
  built h := by simp [hmode] at h
  error h := by simp [hmode] at h
  busy left h := by simp [hbusy] at h

theorem resetValue_inv (w : Nat) : (Block.resetValue w).Inv :=
  .of_empty rfl rfl rfl rfl ⟨rfl, rfl, rfl, rfl, rfl, rfl, rfl, rfl⟩ ⟨rfl, rfl, rfl, rfl⟩ rfl

theorem resetBlock_inv (b : Block w) : (resetBlock b).Inv :=
  .of_empty rfl rfl rfl rfl ⟨rfl, rfl, rfl, rfl, rfl, rfl, rfl, rfl⟩ ⟨rfl, rfl, rfl, rfl⟩ rfl

theorem emptied_inv (hbusy : b.building = none) : (emptied b).Inv :=
  .of_empty rfl rfl rfl rfl ⟨rfl, rfl, rfl, rfl, rfl, rfl, rfl, rfl⟩ ⟨rfl, rfl, rfl, rfl⟩ hbusy

/-- A change that keeps STATE, the error registers and the tree, and in IDLE the read-out, is safe. -/
theorem Block.Inv.kept (h : b.Inv) (hs : SameResults b t)
    (htable : b.mode ≠ .idle → t.freq = b.freq ∧ t.work = b.work)
    (hread : b.mode = .idle → t.rTag = b.rTag ∧ t.rLeft = b.rLeft ∧ t.rRight = b.rRight ∧ t.rIdx = b.rIdx)
    (hmode : t.mode = b.mode) (herr : t.err = b.err) (hresp : t.resp = b.resp)
    (herrcmd : t.errcmd = b.errcmd)
    (hbusy : ∀ left, t.building = some left → 1 ≤ left ∧ b.mode ≠ .error ∧ t.cmd = 0x3000#16) : t.Inv := by
  have htree : b.mode ≠ .idle → b.TreeValid → t.TreeValid :=
    fun hm => hs.treeValid (htable hm).1 (htable hm).2
  constructor <;> simp only [hmode, herr, hresp, herrcmd]
  case resp => exact h.resp
  case err => exact h.err
  case errcmd => exact h.errcmd
  case idle => exact fun hm => hs.noTree (h.idle hm)
  case idleReadOut =>
    intro hm
    obtain ⟨htag, hleft, hright, hidx⟩ := hread hm
    rw [htag, hleft, hright, hidx]
    exact h.idleReadOut hm
  case built => exact fun hm => htree (by simp [hm]) (h.built hm)
  case error => exact fun hm => (h.error hm).imp hs.noTree (htree (by simp [hm]))
  case busy => exact hbusy

/-- The error entry keeps what was there (R82). -/
theorem raiseError_inv (h : b.Inv) {code : ErrCode} (hcode : code ≠ .ok) (hmode : b.mode ≠ .error)
    (hcmd : b.cmd ≠ 0x0000#16) (hbusy : b.building = none) : (raiseError code b).Inv := by
  have hs : SameResults b (raiseError code b) := ⟨rfl, rfl, rfl, rfl, rfl, rfl, rfl, rfl⟩
  constructor
  case resp => rfl
  case err => simp [hcode]
  case errcmd => simp [hcmd]
  case idle => simp
  case idleReadOut => simp
  case built => simp
  case error =>
    intro _
    cases hm : b.mode with
    | idle => exact .inl (hs.noTree (h.idle hm))
    | built => exact .inr (hs.treeValid rfl rfl (h.built hm))
    | error => exact absurd hm hmode
  case busy => simp [hbusy]

theorem buildWrites_inv (h : b.Inv) (hw : w ≤ 2040) (hmode : b.mode = .idle)
    (hne : presentSyms b.freq ≠ []) (hsum : tableSum b.freq ≤ 2 ^ w - 1) (hbusy : b.building = none) :
    (buildWrites b).Inv := by
  have herr : b.err = .ok := h.err.2 (by simp [hmode])
  have herrcmd : b.errcmd = 0x0000#16 := h.errcmd.2 (by simp [hmode])
  constructor <;> simp only [buildWrites_mode, buildWrites_resp, buildWrites_err, buildWrites_errcmd,
    buildWrites_building]
  case resp => exact herr.symm
  case err => simp [herr]
  case errcmd => simp [herrcmd]
  case idle => simp
  case idleReadOut => simp
  case built => exact fun _ => buildWrites_treeValid hne hsum hw
  case error => simp
  case busy => simp [hbusy]

/-- Every accepted word keeps the invariant. -/
theorem Answer.keeps_inv (ha : Answer (decode b.cmd) b t) (hw : w ≤ 2040) (h : b.Inv)
    (hbusy : b.building = none) : t.Inv := by
  have hok : b.mode ≠ .error → .ok = b.resp := fun hm => (h.resp.trans (h.err.2 hm)).symm
  cases ha with
  | clears => exact emptied_inv hbusy
  | raises code hcode hmode hd =>
    exact raiseError_inv h hcode hmode (fun hcmd => hd (decode_eq_clear.2 hcmd)) hbusy
  | builds _ hmode hne hsum => exact buildWrites_inv h hw hmode hne hsum hbusy
  | ignores hmode =>
    exact h.kept ⟨rfl, rfl, rfl, rfl, rfl, rfl, rfl, rfl⟩ (fun _ => ⟨rfl, rfl⟩) (by simp) rfl rfl
      h.resp.symm rfl (by simp [hbusy])
  | writesFreq sym v hmode =>
    exact h.kept ⟨rfl, rfl, rfl, rfl, rfl, rfl, rfl, rfl⟩ (absurd hmode) (by simp) rfl rfl
      (hok (by simp [hmode])) rfl (by simp [hbusy])
  | readsRecord tag sym freq left right idx hmode =>
    exact h.kept ⟨rfl, rfl, rfl, rfl, rfl, rfl, rfl, rfl⟩ (fun _ => ⟨rfl, rfl⟩) (by simp [hmode]) rfl rfl
      (hok (by simp [hmode])) rfl (by simp [hbusy])
  | readsFreq sym v hmode =>
    exact h.kept ⟨rfl, rfl, rfl, rfl, rfl, rfl, rfl, rfl⟩ (fun _ => ⟨rfl, rfl⟩) (by simp) rfl rfl
      (hok hmode) rfl (by simp [hbusy])

/-! The host's side and the BUILD in progress: no register changes. -/

theorem Block.Inv.hostSide (h : b.Inv) {build : Option Nat} {word : CmdWord} {din : BitVec w}
    {host : List (PortIn w)} {draws : Nat}
    (hbuild : ∀ left, build = some left → 1 ≤ left ∧ b.mode ≠ .error ∧ word = 0x3000#16) :
    Block.Inv { b with building := build, cmd := word, din := din, host := host, draws := draws } :=
  h.kept ⟨rfl, rfl, rfl, rfl, rfl, rfl, rfl, rfl⟩ (fun _ => ⟨rfl, rfl⟩) (fun _ => ⟨rfl, rfl, rfl, rfl⟩)
    rfl rfl rfl rfl hbuild

theorem withHost_inv (h : b.Inv) (rest : List (PortIn w)) : (withHost rest b).Inv := h.hostSide h.busy

theorem sample_inv (h : b.Inv) (hbusy : b.building = none) (p : PortIn w) : (sample p b).Inv :=
  h.hostSide (by simp [hbusy])

theorem withBuilding_inv (h : b.Inv) {build : Option Nat}
    (hbuild : ∀ left, build = some left → 1 ≤ left ∧ b.mode ≠ .error ∧ b.cmd = 0x3000#16) :
    (withBuilding build b).Inv := h.hostSide hbuild

/-- A BUILD that starts is outside ERROR, and takes one edge or more (R8, R105). -/
theorem beginBuild_inv (h : b.Inv) (hstart : startsBuild b = true) : (beginBuild b).Inv := by
  simp only [startsBuild, Bool.and_eq_true, beq_iff_eq, bne_iff_ne] at hstart
  obtain ⟨hd, hmode⟩ := hstart
  refine h.hostSide fun left hleft => ?_
  obtain rfl := Option.some.inj hleft
  exact ⟨Nat.succ_pos _, hmode, decode_eq_build.1 hd⟩

theorem sampledEffect_inv (h : b.Inv) (hw : w ≤ 2040) (hbusy : b.building = none) :
    (sampledEffect b).Inv := (sampledEffect_answer b).keeps_inv hw h hbusy

/-- The BUILD in progress completes as the sampled word, which is still BUILD's (R105). -/
theorem completedBuild_inv (h : b.Inv) (hw : w ≤ 2040) {left : Nat} (hbusy : b.building = some left) :
    (effect .build (withBuilding none b)).Inv := by
  obtain ⟨-, -, hcmd⟩ := h.busy left hbusy
  have ha := effect_answer .build (withBuilding none b)
  rw [← decode_eq_build.2 hcmd] at ha
  exact Answer.keeps_inv ha hw (withBuilding_inv h (by simp)) rfl

/-! A transaction, and a clock edge. -/

theorem stepBlock_inv (h : b.Inv) (hw : w ≤ 2040) : (stepBlock b).Inv := by
  have ht := stepBlock_transaction b
  generalize stepBlock b = t at ht
  cases ht with
  | resets => exact withHost_inv (resetBlock_inv b) _
  | completes hbusy =>
    obtain ⟨left, hleft⟩ := Option.isSome_iff_exists.1 hbusy
    exact completedBuild_inv h hw hleft
  | @accepts p rest hidle =>
    exact sampledEffect_inv (sample_inv (withHost_inv h rest) hidle p) hw hidle
  | passes => exact withHost_inv h _

theorem edgeBlock_inv (h : b.Inv) (hw : w ≤ 2040) (p : PortIn w) : (edgeBlock p b).Inv := by
  unfold edgeBlock
  split
  · exact resetBlock_inv b
  split
  next left hleft =>
    split
    next => exact completedBuild_inv h hw hleft
    next hlt =>
      obtain ⟨-, hmode, hcmd⟩ := h.busy left hleft
      refine withBuilding_inv h fun left' hleft' => ⟨?_, hmode, hcmd⟩
      obtain rfl := Option.some.inj hleft'
      omega
  next hidle =>
    split
    · have hsampled := sample_inv h hidle p
      split
      next hstart => exact beginBuild_inv hsampled hstart
      next => exact sampledEffect_inv hsampled hw hidle
    · exact h

theorem clockBlock_inv (h : b.Inv) (hw : w ≤ 2040) : (clockBlock b).Inv := by
  unfold clockBlock
  split
  · exact edgeBlock_inv (withHost_inv h _) hw _
  · exact edgeBlock_inv h hw _

/-- Settles O39: the reset state is an empty block. -/
theorem resetMeetsInvariant : Obligations.ResetMeetsInvariant :=
  ⟨resetValue_inv _, fun c => resetValue_inv c.freqBits⟩

/-- Settles O37: each of the four things a transaction can be keeps the invariant. -/
theorem stepKeepsInvariant : Obligations.StepKeepsInvariant := by
  rintro ⟨c, b⟩ s' h hstep
  rw [step_mk] at hstep
  cases hstep
  exact stepBlock_inv h c.le

/-- Settles O38: an edge starts, counts down or completes a BUILD, or does what a transaction does. -/
theorem clockEdgeKeepsInvariant : Obligations.ClockEdgeKeepsInvariant := by
  rintro ⟨c, b⟩ s' h hedge
  rw [clockEdge_mk] at hedge
  cases hedge
  exact clockBlock_inv h c.le

end Sys2Proof.Machine
end

section
/-! PROOFS. A step without a command: nothing offered, or a BUILD in progress (R38, R103, R105). -/

namespace Sys2Proof.Machine

variable {w : Nat} {b : Block w}

theorem stepBlock_of_no_host (hidle : b.building = none) (hhost : b.host = []) : stepBlock b = b := by
  simp [stepBlock, Block.busy, hidle, hhost]

/-- A sample that offers nothing is taken off the queue. -/
theorem stepBlock_of_no_offer {p : PortIn w} {rest : List (PortIn w)} (hidle : b.building = none)
    (hhost : b.host = p :: rest) (hrst : p.rst = false) (hvalid : p.cmdValid = false) :
    stepBlock b = withHost rest b := by
  simp [stepBlock, Block.busy, hidle, hhost, hrst, hvalid]

/-- Where no reset comes first, a BUILD in progress completes, whatever the host offers. -/
theorem stepBlock_of_building {left : Nat} (hbusy : b.building = some left)
    (hrst : ∀ p ∈ b.host.head?, p.rst = false) :
    stepBlock b = effect .build (withBuilding none b) := by
  cases hhost : b.host with
  | nil => simp [stepBlock, Block.busy, hbusy, hhost]
  | cons p rest =>
    have hp : p.rst = false := hrst p (by simp [hhost])
    simp [stepBlock, Block.busy, hbusy, hhost, hp]

/-- Settles O41: the three branches of a step that accepts no word and takes no reset. -/
theorem stepWithoutCommand : Obligations.StepWithoutCommand := by
  intro c b
  refine ⟨fun hidle hhost => ?_, fun p rest hidle hhost hrst hvalid => ?_, fun left hbusy hrst => ?_⟩
  · rw [step_mk, stepBlock_of_no_host hidle hhost]
  · rw [step_mk, stepBlock_of_no_offer hidle hhost hrst hvalid]
    rfl
  · rw [step_mk, exec_mk, stepBlock_of_building hbusy hrst]
    rfl

end Sys2Proof.Machine
end

section
/-! PROOFS. A command repeated: the reads, SET_FREQ and LOAD_PAIR (R36). -/

namespace Sys2Proof.Machine

variable {w : Nat} {b t : Block w}

/-! In ERROR a repeated command is ignored (R92). -/

theorem Answer.eq_ignored {d : Decoded} (h : Answer d b t) (hm : b.mode = .error)
    (hd : d ≠ .instr .clear) : t = ignored b := by
  cases h with
  | clears hclear => exact absurd hclear hd
  | ignores => rfl
  | _ => simp_all

theorem effect_of_mode_error {i : Instr} (hi : i ≠ .clear) (hm : b.mode = .error) :
    effect i b = ignored b :=
  (effect_answer i b).eq_ignored hm (by simpa using hi)

/-! The reads. -/

/-- READ_NODE, READ_LEAF or READ_FREQ (R36). -/
def IsRead (i : Instr) : Prop :=
  (∃ k, i = .readNode k) ∨ (∃ k, i = .readLeaf k) ∨ (∃ s, i = .readFreq s)

theorem IsRead.ne_clear {i : Instr} (hi : IsRead i) : i ≠ .clear := by
  rintro rfl
  simp [IsRead] at hi

/-- What the read `i` can do to the block: raise an error (R82), nothing but RESP (R92), or write the read-out
registers. What it writes there does not depend on them, so the same read finds it again. -/
inductive ReadAnswer (i : Instr) (b : Block w) : Block w → Prop
  | raises (code : ErrCode) : ReadAnswer i b (raiseError code b)
  | ignores (hmode : b.mode = .error) : ReadAnswer i b (ignored b)
  | shows (tag : Tag) (sym : Sym) (freq : BitVec w) (left right idx : Idx) (hmode : b.mode ≠ .error)
      (hagain : effect i (respondOk (setReadOut tag sym freq left right idx b)) =
        respondOk (setReadOut tag sym freq left right idx b)) :
      ReadAnswer i b (respondOk (setReadOut tag sym freq left right idx b))

/-- The state check answers by itself where the read does not execute (R85, R92). -/
theorem gate_readAnswer {i : Instr} {body : Block w}
    (hbody : legality i b.mode = .executes → ReadAnswer i b body) :
    ReadAnswer i b (gate (legality i b.mode) b body) := by
  obtain ⟨hv, h⟩ | ⟨-, h⟩ | ⟨hv, h⟩ := gate_cases (legality i b.mode) b body <;> rw [h]
  · exact hbody hv
  · exact .raises _
  · exact .ignores (legality_eq_ignored hv)

theorem readNodeBlock_shows {idx : Idx} (hm : b.mode = .built) (h : ¬ b.nodecnt.toNat ≤ idx.toNat) :
    readNodeBlock idx b = respondOk (setReadOut (b.nodeAt idx).tag (b.nodeAt idx).sym (b.nodeAt idx).freq
      (b.nodeAt idx).left (b.nodeAt idx).right idx b) :=
  (readNodeBlock_executes hm idx).trans (if_neg h)

theorem readLeafBlock_executes (hm : b.mode = .built) (k : Idx) :
    readLeafBlock k b = readLeafBody k b := by
  have h : legality (.readLeaf k) b.mode = .executes := legality_executes_iff.2 hm
  rw [readLeafBlock, h, gate_executes]

theorem readLeafBlock_shows {k : Idx} (hm : b.mode = .built) (h : ¬ b.leafcnt.toNat ≤ k.toNat) :
    readLeafBlock k b = respondOk (setReadOut (b.nodeAt k).tag (b.nodeAt k).sym (b.nodeAt k).freq
      nilIdx nilIdx k b) :=
  (readLeafBlock_executes hm k).trans (if_neg h)

/-- READ_FREQ leaves four of the read-out registers as they are (R77). -/
theorem readFreqBlock_shows (hm : b.mode ≠ .error) (sym : Sym) :
    readFreqBlock sym b =
      respondOk (setReadOut b.rTag sym (b.freqAt sym) b.rLeft b.rRight b.rIdx b) :=
  readFreqBlock_executes hm sym

theorem readNodeBody_readAnswer (hm : b.mode = .built) (idx : Idx) :
    ReadAnswer (.readNode idx) b (readNodeBody idx b) := by
  by_cases h : b.nodecnt.toNat ≤ idx.toNat
  · exact readNodeBody_fails h ▸ .raises _
  · rw [← readNodeBlock_executes hm, readNodeBlock_shows hm h]
    exact .shows _ _ _ _ _ _ (by simp [hm]) (readNodeBlock_shows hm h)

theorem readLeafBody_readAnswer (hm : b.mode = .built) (k : Idx) :
    ReadAnswer (.readLeaf k) b (readLeafBody k b) := by
  by_cases h : b.leafcnt.toNat ≤ k.toNat
  · exact readLeafBody_fails h ▸ .raises _
  · rw [← readLeafBlock_executes hm, readLeafBlock_shows hm h]
    exact .shows _ _ _ _ _ _ (by simp [hm]) (readLeafBlock_shows hm h)

theorem readFreqBody_readAnswer (hm : b.mode ≠ .error) (sym : Sym) :
    ReadAnswer (.readFreq sym) b (readFreqBody sym b) := by
  rw [← readFreqBlock_executes hm, readFreqBlock_shows hm]
  refine .shows _ _ _ _ _ _ hm (readFreqBlock_shows ?_ sym)
  exact hm

theorem effect_readAnswer {i : Instr} (hi : IsRead i) (b : Block w) : ReadAnswer i b (effect i b) := by
  obtain ⟨idx, rfl⟩ | ⟨k, rfl⟩ | ⟨sym, rfl⟩ := hi
  · exact gate_readAnswer fun h => readNodeBody_readAnswer (legality_executes_iff.1 h) idx
  · exact gate_readAnswer fun h => readLeafBody_readAnswer (legality_executes_iff.1 h) k
  · exact gate_readAnswer fun h => readFreqBody_readAnswer (legality_executes_iff.1 h) sym

/-- A read writes nothing that a read shows. -/
theorem ReadAnswer.storage {i : Instr} (h : ReadAnswer i b t) :
    t.freq = b.freq ∧ t.arena = b.arena ∧ ∀ j : Idx, t.nodeAt j = b.nodeAt j := by
  cases h <;> exact ⟨rfl, rfl, fun _ => rfl⟩

theorem ReadAnswer.again {i : Instr} (h : ReadAnswer i b t) (ht : t.mode ≠ .error) :
    effect i t = t ∧ t = { b with
      rTag := t.rTag, rSym := t.rSym, rFreq := t.rFreq, rLeft := t.rLeft
      rRight := t.rRight, rIdx := t.rIdx, resp := .ok } := by
  cases h with
  | raises => exact absurd rfl ht
  | ignores hmode => exact absurd hmode ht
  | shows _ _ _ _ _ _ _ hagain => exact ⟨hagain, rfl⟩

/-! The loads. -/

@[simp] theorem writeFreq_writeFreq (sym : Sym) (u v : BitVec w) (b : Block w) :
    writeFreq sym v (writeFreq sym u b) = writeFreq sym v b := by
  simp [writeFreq]

theorem writeFreq_respondOk (sym : Sym) (v : BitVec w) (b : Block w) :
    writeFreq sym v (respondOk b) = respondOk (writeFreq sym v b) := rfl

theorem setFreqBlock_executes (hm : b.mode = .idle) (sym : Sym) :
    setFreqBlock sym b = respondOk (writeFreq sym b.din b) := by
  simp [setFreqBlock, setFreqBody, hm, legality]

theorem loadPairBlock_executes (hm : b.mode = .idle) (sym : Sym) :
    loadPairBlock sym b = loadPairBody sym b := by
  simp [loadPairBlock, hm, legality]

theorem setFreqBlock_again (hm : b.mode = .idle) (sym : Sym) :
    setFreqBlock sym (setFreqBlock sym b) = setFreqBlock sym b := by
  have hm' : (respondOk (writeFreq sym b.din b)).mode = .idle := hm
  rw [setFreqBlock_executes hm, setFreqBlock_executes hm', respondOk_din, writeFreq_din,
    writeFreq_respondOk, writeFreq_writeFreq]
  rfl

/-- The entry that a successful LOAD_PAIR wrote is not zero, so the second one finds it there (R54). -/
theorem loadPairBlock_again (hm : b.mode = .idle) (sym : Sym)
    (hok : (loadPairBlock sym b).mode ≠ .error) :
    loadPairBlock sym (loadPairBlock sym b) = raiseError .dupSymbol (loadPairBlock sym b) := by
  rw [loadPairBlock_executes hm] at hok ⊢
  obtain ⟨-, h⟩ | ⟨-, -, h⟩ | ⟨hdin, -, h⟩ := loadPairBody_cases sym b <;> rw [h] at hok ⊢
  · exact absurd (raiseError_mode _ b) hok
  · exact absurd (raiseError_mode _ b) hok
  · have hm' : (respondOk (writeFreq sym b.din b)).mode = .idle := hm
    have hdin' : (respondOk (writeFreq sym b.din b)).din ≠ 0#w := hdin
    have hentry : (respondOk (writeFreq sym b.din b)).freqAt sym ≠ 0#w :=
      (freqAt_writeFreq_self sym b.din b).trans_ne hdin
    rw [loadPairBlock_executes hm', loadPairBody, if_neg hdin', if_pos hentry]

/-- Settles O47: a read's answer keeps the storage and is found again, and in ERROR it is ignored; a load meets
the entry that it wrote. -/
theorem readsAreIdempotent : Obligations.ReadsAreIdempotent := by
  intro c b t
  simp only [exec_mk, next_inj]
  refine ⟨fun i hi ht => ?_, fun sym hm ht => ?_, fun sym hm ht hok => ?_⟩
  · have h : ReadAnswer i b t := ht ▸ effect_readAnswer hi b
    exact ⟨h.storage, h.again, effect_of_mode_error (IsRead.ne_clear hi)⟩
  · subst ht
    exact setFreqBlock_again hm sym
  · subst ht
    exact loadPairBlock_again hm sym hok

end Sys2Proof.Machine
end


section
/-! PROOFS. The decoder inverts the encoder, and the opcode map says the same by pattern and mask (R45, R46, R50). -/

namespace Sys2Proof.Machine

/-! The fields of a word that is written as an operand behind a constant (R43, R46). -/

section fields

variable (u : BitVec 8) (sym : Sym) (v : BitVec 7) (idx : Idx)

@[simp] theorem opField_append_sym : opField (u ++ sym) = u.extractLsb' 4 4 :=
  BitVec.extractLsb'_append_eq_of_le (by decide)

@[simp] theorem rsvField_append_sym : rsvField (u ++ sym) = u.extractLsb' 1 3 :=
  BitVec.extractLsb'_append_eq_of_le (by decide)

@[simp] theorem argField_append_sym : argField (u ++ sym) = u.extractLsb' 0 1 ++ sym := by
  apply BitVec.eq_of_toNat_eq
  have := sym.isLt
  simp only [argField, BitVec.extractLsb'_toNat, toNat_append_eq_add, Nat.shiftRight_zero]
  omega

@[simp] theorem opField_append_idx : opField (v ++ idx) = v.extractLsb' 3 4 :=
  BitVec.extractLsb'_append_eq_of_le (by decide)

@[simp] theorem rsvField_append_idx : rsvField (v ++ idx) = v.extractLsb' 0 3 :=
  BitVec.extractLsb'_append_eq_of_le (by decide)

@[simp] theorem argField_append_idx : argField (v ++ idx) = idx := by
  rw [argField, BitVec.extractLsb'_append_eq_of_add_le (by decide), BitVec.extractLsb'_eq_self]

end fields

/-- The sym form reads back the symbol that stands behind a zero bit (R45). -/
@[simp] theorem symForm_zero_append (sym : Sym) (mk : Sym → Instr) :
    symForm (0#1 ++ sym) mk = .instr (mk sym) :=
  symForm_eq_instr.2
    ⟨BitVec.extractLsb'_append_eq_of_le (by decide),
      by rw [BitVec.extractLsb'_append_eq_of_add_le (by decide), BitVec.extractLsb'_eq_self]⟩

/-- Decoding an instruction's word gives the instruction back, whatever its operand (R46, R50). -/
@[simp] theorem decode_encode (i : Instr) : decode (encode i) = .instr i := by
  cases i with
  | clear | build => decide
  | setFreq sym | loadPair sym | readFreq sym => simp [decode, encode]
  | readNode idx | readLeaf idx => simp [decode, encode, idxForm]

theorem decode_eq_instr_iff {w : CmdWord} {i : Instr} : decode w = .instr i ↔ encode i = w :=
  ⟨encode_of_decode, fun h => h ▸ decode_encode i⟩

/-- The operand types keep the ranges of R45. -/
theorem instr_wf (i : Instr) : i.wf = true := by
  cases i with
  | clear | build => rfl
  | setFreq x | loadPair x | readFreq x | readNode x | readLeaf x => exact decide_eq_true x.isLt

/-- Settles O1: the decoder reads back every encoded instruction, and reads an instruction only from its own
word. -/
theorem encodeDecodeRoundTrip : Obligations.EncodeDecodeRoundTrip :=
  ⟨decode_encode, fun _ i h => ⟨encode_of_decode h, instr_wf i⟩⟩

/-- Settles O3: seven of the words are encoded instructions, and four break one rule of R47 or R48 each. -/
theorem sampleWordsDecode : Obligations.SampleWordsDecode :=
  ⟨decode_encode .clear, decode_encode (.setFreq 0x61#8), decode_encode (.loadPair 0x41#8),
    decode_encode .build, decode_encode (.readNode 511#9), decode_encode (.readLeaf 0#9),
    decode_encode (.readFreq 0xFF#8), by decide, by decide, by decide, by decide⟩

/-! The opcode map (R46). -/

/-- A word whose high bits are masked to a constant is that constant before the word's own low bits. -/
theorem append_low_of_and_high {m n : Nat} {w : BitVec (m + n)} {u : BitVec m}
    (h : w &&& (BitVec.allOnes m ++ 0#n) = u ++ 0#n) : u ++ w.extractLsb' 0 n = w := by
  have hhigh : w.extractLsb' n m = u := by
    have := congrArg (BitVec.extractLsb' n m) h
    simpa [BitVec.extractLsb'_and, BitVec.extractLsb'_append_eq_of_le] using this
  rw [← hhigh, BitVec.extractLsb'_append_extractLsb'_eq_extractLsb' (Nat.zero_add n).symm,
    BitVec.extractLsb'_eq_self]

/-- A word that matches a row is the word of an instruction of that row. -/
theorem exists_encode_of_hits {r : OpcodeRow} (hr : r ∈ opcodeRows) {w : CmdWord} (h : r.hits w = true) :
    ∃ i, encode i = w ∧ mnemonic i = r.mnemonic := by
  have h : w &&& r.mask = r.pattern := beq_iff_eq.1 h
  simp only [opcodeRows, List.mem_cons, List.not_mem_nil, or_false] at hr
  obtain rfl | rfl | rfl | rfl | rfl | rfl | rfl := hr
  · exact ⟨.clear, h.symm.trans BitVec.and_allOnes, rfl⟩
  · exact ⟨.setFreq (w.extractLsb' 0 8), append_low_of_and_high (m := 8) h, rfl⟩
  · exact ⟨.loadPair (w.extractLsb' 0 8), append_low_of_and_high (m := 8) h, rfl⟩
  · exact ⟨.build, h.symm.trans BitVec.and_allOnes, rfl⟩
  · exact ⟨.readNode (w.extractLsb' 0 9), append_low_of_and_high (m := 7) h, rfl⟩
  · exact ⟨.readLeaf (w.extractLsb' 0 9), append_low_of_and_high (m := 7) h, rfl⟩
  · exact ⟨.readFreq (w.extractLsb' 0 8), append_low_of_and_high (m := 8) h, rfl⟩

/-- The word of every instruction matches a row of the instruction's mnemonic. -/
theorem exists_row_hits_encode (i : Instr) :
    ∃ r ∈ opcodeRows, r.mnemonic = mnemonic i ∧ r.hits (encode i) = true := by
  cases i with
  | clear => exact Laws.RowOfEncoding.clear
  | setFreq sym => exact Laws.RowOfEncoding.setFreq sym
  | loadPair sym => exact Laws.RowOfEncoding.loadPair sym
  | build => exact Laws.RowOfEncoding.build
  | readNode idx => exact Laws.RowOfEncoding.readNode idx
  | readLeaf k => exact Laws.RowOfEncoding.readLeaf k
  | readFreq sym => exact Laws.RowOfEncoding.readFreq sym

theorem mnemonics_nodup : (opcodeRows.map OpcodeRow.mnemonic).Nodup := by decide

theorem hits_iff {r : OpcodeRow} (hr : r ∈ opcodeRows) (w : CmdWord) :
    r.hits w = true ↔ ∃ i, decode w = .instr i ∧ mnemonic i = r.mnemonic := by
  simp only [decode_eq_instr_iff]
  refine ⟨exists_encode_of_hits hr, ?_⟩
  rintro ⟨i, rfl, hi⟩
  obtain ⟨r', hr', hname, hhits⟩ := exists_row_hits_encode i
  rwa [List.inj_on_of_nodup_map mnemonics_nodup hr hr' (hi.symm.trans hname.symm)]

/-- No word matches two rows: both would carry the mnemonic of the one decoded command. -/
theorem row_eq_of_hits {r r' : OpcodeRow} (hr : r ∈ opcodeRows) (hr' : r' ∈ opcodeRows) {w : CmdWord}
    (h : r.hits w = true) (h' : r'.hits w = true) : r = r' := by
  obtain ⟨i, hi, hname⟩ := (hits_iff hr w).1 h
  obtain ⟨i', hi', hname'⟩ := (hits_iff hr' w).1 h'
  obtain rfl : i = i' := Decoded.instr.inj (hi.symm.trans hi')
  exact List.inj_on_of_nodup_map mnemonics_nodup hr hr' (hname.symm.trans hname')

/-- Settles O2: a matching row is the decoded command's own row, so there is at most one. -/
theorem wordMatchesRowExactlyWhenDecoded : Obligations.WordMatchesRowExactlyWhenDecoded := by
  refine fun w => ⟨?_, fun r hr => hits_iff hr w⟩
  rw [← List.toFinset_card_of_nodup (mnemonics_nodup.of_map.filter _), Finset.card_le_one]
  simp only [List.mem_toFinset, List.mem_filter]
  exact fun r ⟨hr, h⟩ r' ⟨hr', h'⟩ => row_eq_of_hits hr hr' h h'

end Sys2Proof.Machine
end


section
/-! PROOFS. The illegal words, by their fields, and what an accepted one does (R47, R48, R84, R92). -/

namespace Sys2Proof.Machine

theorem noneForm_illegal_iff {arg : BitVec 9} {i : Instr} :
    (∃ why, noneForm arg i = .illegal why) ↔ arg ≠ 0#9 := by
  unfold noneForm; split <;> simp_all

theorem symForm_illegal_iff {arg : BitVec 9} {mk : Sym → Instr} :
    (∃ why, symForm arg mk = .illegal why) ↔ arg.extractLsb' 8 1 ≠ 0#1 := by
  unfold symForm; split <;> simp_all

/-- Bit 8 of the argument is bit 8 of the word (R43). -/
theorem argField_bit_eight (v : CmdWord) : (argField v).extractLsb' 8 1 = v.extractLsb' 8 1 := by
  apply BitVec.eq_of_toNat_eq
  simp only [argField, BitVec.extractLsb'_toNat, Nat.shiftRight_eq_div_pow]
  omega

/-- A word is illegal for its reserved opcode, its reserved bits, or the argument its form forbids (R47, R48). -/
theorem decode_illegal_iff (v : CmdWord) : (∃ why, decode v = .illegal why) ↔
    7 ≤ (opField v).toNat ∨ rsvField v ≠ 0#3 ∨
      ((opField v = 1#4 ∨ opField v = 2#4 ∨ opField v = 6#4) ∧ v.extractLsb' 8 1 ≠ 0#1) ∨
      ((opField v = 0#4 ∨ opField v = 3#4) ∧ argField v ≠ 0#9) := by
  simp only [← BitVec.toNat_inj (x := opField v)]
  unfold decode
  split
  next hrsv => simp [hrsv]
  next hrsv =>
    replace hrsv := not_not.1 hrsv
    split <;> rename_i hop
    case h_1 | h_4 => simp [hop, hrsv, noneForm_illegal_iff]
    case h_2 | h_3 | h_7 => simp [hop, hrsv, symForm_illegal_iff, argField_bit_eight]
    case h_5 | h_6 => simp [hop, hrsv, idxForm]
    case h_8 =>
      simp only [imp_false] at *
      exact iff_of_true ⟨_, rfl⟩ (.inl (by omega))

theorem sampledEffect_of_illegal {w : Nat} {b : Block w} {why : IllegalReason}
    (h : decode b.cmd = .illegal why) : sampledEffect b = illegalWord b := by
  simp [sampledEffect, h]

/-- Settles O4: the illegal words by their fields, and the error entry or the ignored word that answers one. -/
theorem illegalWordsAreReservedAndRaise : Obligations.IllegalWordsAreReservedAndRaise := by
  refine ⟨decode_illegal_iff, fun c b why hd => ?_⟩
  rw [runSampled_mk, sampledEffect_of_illegal hd]
  exact ⟨fun hm => next_inj.2 (illegalWord_raises hm), fun hm => next_inj.2 (illegalWord_error hm)⟩

end Sys2Proof.Machine
end


section
/-! PROOFS. The assembler (R51, R52): the lines it accepts, and the word and the operand it gives for them. -/

namespace Sys2Proof.Machine

variable {c : Config} {l : AsmLine}

theorem assemble_eq_some {word : CmdWord} {din : Option (BitVec c.freqBits)} :
    assemble c l = some (word, din) ↔
      l.wf c = true ∧ encode (lineInstr l) = word ∧ (lineDin l).map (BitVec.ofNat c.freqBits) = din := by
  unfold assemble; split <;> simp_all

theorem assemble_isSome : (assemble c l).isSome = true ↔ l.wf c = true := by
  unfold assemble; split <;> simp_all

/-- A symbol in range is a byte; the characters of R51 are ASCII. -/
theorem symOperand_value_lt {s : SymOperand} (h : s.wf = true) : s.value < 256 := by
  cases s with
  | num n => exact of_decide_eq_true h
  | char ch =>
    have : ch.toNat < 128 := of_decide_eq_true h
    exact this.trans (by decide)

theorem lineDin_lt (h : l.wf c = true) {f : Nat} (hf : lineDin l = some f) : f < 2 ^ c.freqBits := by
  cases l with
  | setFreq s g | loadPair s g => simp_all [lineDin, AsmLine.wf, freqWf]
  | clear | build | readNode | readLeaf | readFreq => cases hf

/-- Below the width's bound the value on `din` is the line's own frequency. -/
theorem lineDin_exact (h : l.wf c = true) :
    ((lineDin l).map (BitVec.ofNat c.freqBits)).map BitVec.toNat = lineDin l := by
  cases hd : lineDin l with
  | none => rfl
  | some f => simp [Nat.mod_eq_of_lt (lineDin_lt h hd)]

/-- The argument of a line's word is the index the line names. -/
theorem lineWord_idx (h : l.wf c = true) {i : Nat} (hl : l = .readNode i ∨ l = .readLeaf i) :
    (argField (encode (lineInstr l))).toNat = i := by
  obtain rfl | rfl := hl <;>
  · have hi : i < 2 ^ 9 := of_decide_eq_true h
    simp only [lineInstr, encode, argField_append_idx, BitVec.toNat_ofNat, Nat.mod_eq_of_lt hi]

/-- The low byte of a line's word is the symbol the line names. -/
theorem lineWord_sym (h : l.wf c = true) {s : SymOperand} {f : Nat}
    (hl : l = .setFreq s f ∨ l = .loadPair s f ∨ l = .readFreq s) :
    ((encode (lineInstr l)).extractLsb' 0 8).toNat = s.value := by
  have hs : s.value < 2 ^ 8 := by
    apply symOperand_value_lt
    obtain rfl | rfl | rfl := hl <;> simp_all [AsmLine.wf]
  obtain ⟨u, hu⟩ : ∃ u : BitVec 8, encode (lineInstr l) = u ++ BitVec.ofNat 8 s.value := by
    obtain rfl | rfl | rfl := hl <;> exact ⟨_, rfl⟩
  rw [hu, BitVec.extractLsb'_append_eq_of_add_le (by decide), BitVec.extractLsb'_eq_self,
    BitVec.toNat_ofNat, Nat.mod_eq_of_lt hs]

/-- Settles O56: an answer means a line in range, and its word decodes to the line's command by the round trip. -/
theorem assemblerEncodesAndRefuses : Obligations.AssemblerEncodesAndRefuses := by
  refine fun c l => ⟨assemble_isSome, fun word din h => ?_⟩
  obtain ⟨hwf, rfl, rfl⟩ := assemble_eq_some.1 h
  exact ⟨decode_encode _, lineDin_exact hwf, fun i => lineWord_idx hwf, fun s f => lineWord_sym hwf⟩

end Sys2Proof.Machine
end


section
/-! PROOFS. What SET_FREQ and LOAD_PAIR do, and their words (R53, R54, R86, R87). -/

namespace Sys2Proof.Machine

/-! The words of a sym form (R43, R45, R46). -/

section words

variable {v : CmdWord}

/-- A word is its opcode, its four bits above the symbol, and the symbol. -/
theorem high_append_sym {op : BitVec 4} {u : BitVec 8} (hu : u = op ++ 0#4) (hop : v.extractLsb' 12 4 = op)
    (hhigh : v.extractLsb' 8 4 = 0#4) : u ++ v.extractLsb' 0 8 = v := by
  have htop : v.extractLsb' 12 4 ++ v.extractLsb' 8 4 = v.extractLsb' 8 8 :=
    BitVec.extractLsb'_append_extractLsb'_eq_extractLsb' rfl
  have hall : v.extractLsb' 8 8 ++ v.extractLsb' 0 8 = v.extractLsb' 0 16 :=
    BitVec.extractLsb'_append_extractLsb'_eq_extractLsb' rfl
  rw [hu, ← hop, ← hhigh, htop, hall, BitVec.extractLsb'_eq_self]

theorem decode_setFreq_of_fields (hop : v.extractLsb' 12 4 = 1#4) (hhigh : v.extractLsb' 8 4 = 0#4) :
    decode v = .instr (.setFreq (v.extractLsb' 0 8)) :=
  decode_eq_instr_iff.2 (high_append_sym (by decide) hop hhigh)

theorem decode_loadPair_of_fields (hop : v.extractLsb' 12 4 = 2#4) (hhigh : v.extractLsb' 8 4 = 0#4) :
    decode v = .instr (.loadPair (v.extractLsb' 0 8)) :=
  decode_eq_instr_iff.2 (high_append_sym (by decide) hop hhigh)

/-- The four bits above the symbol are `rsv` and bit 8 (R43). -/
theorem bits_above_sym_eq_zero (hrsv : rsvField v = 0#3) (hbit : v.extractLsb' 8 1 = 0#1) :
    v.extractLsb' 8 4 = 0#4 := by
  have h : v.extractLsb' 9 3 ++ v.extractLsb' 8 1 = v.extractLsb' 8 4 :=
    BitVec.extractLsb'_append_extractLsb'_eq_extractLsb' rfl
  rw [← h, hbit]
  exact congrArg (· ++ 0#1) hrsv

/-- A sym form with a nonzero bit above the symbol is illegal (R48). -/
theorem symWord_illegal (hop : opField v = 1#4 ∨ opField v = 2#4 ∨ opField v = 6#4)
    (hhigh : v.extractLsb' 8 4 ≠ 0#4) : ∃ why, decode v = .illegal why := by
  rw [decode_illegal_iff]
  by_cases hrsv : rsvField v = 0#3
  · exact .inr (.inr (.inl ⟨hop, fun hbit => hhigh (bits_above_sym_eq_zero hrsv hbit)⟩))
  · exact .inr (.inl hrsv)

end words

/-- Such a word raises ILLEGAL_CMD outside ERROR (R84). -/
theorem runSampled_symWord_raises {c : Config} {b : Block c.freqBits} (hm : b.mode ≠ .error)
    (hop : opField b.cmd = 1#4 ∨ opField b.cmd = 2#4 ∨ opField b.cmd = 6#4)
    (hhigh : b.cmd.extractLsb' 8 4 ≠ 0#4) :
    runSampled ⟨c, b⟩ = .next ⟨c, raiseError .illegalCmd b⟩ := by
  obtain ⟨why, hd⟩ := symWord_illegal hop hhigh
  rw [runSampled_mk, sampledEffect_of_illegal hd, illegalWord_raises hm]

/-! The effects. -/

section effects

variable {w : Nat} {b : Block w}

/-- Every command runs behind the state check (R85, R91). -/
theorem effect_eq_gate (i : Instr) (b : Block w) :
    ∃ body, effect i b = gate (legality i b.mode) b body := by
  cases i <;> exact ⟨_, rfl⟩

theorem effect_of_badState {i : Instr} (h : legality i b.mode = .badState) :
    effect i b = raiseError .badState b := by
  obtain ⟨body, hbody⟩ := effect_eq_gate i b
  rw [hbody, h, gate_badState]

theorem effect_setFreq_idle (hm : b.mode = .idle) (sym : Sym) :
    effect (.setFreq sym) b = respondOk (writeFreq sym b.din b) := setFreqBlock_executes hm sym

theorem effect_loadPair_enters (hm : b.mode = .idle) {sym : Sym} (hdin : b.din ≠ 0#w)
    (habsent : b.freqAt sym = 0#w) :
    effect (.loadPair sym) b = respondOk (writeFreq sym b.din b) :=
  (loadPairBlock_executes hm sym).trans (by rw [loadPairBody, if_neg hdin, if_neg (not_not.2 habsent)])

theorem effect_loadPair_zeroFreq (hm : b.mode = .idle) (sym : Sym) (hdin : b.din = 0#w) :
    effect (.loadPair sym) b = raiseError .zeroFreq b :=
  (loadPairBlock_executes hm sym).trans (if_pos hdin)

theorem effect_loadPair_dupSymbol (hm : b.mode = .idle) {sym : Sym} (hdin : b.din ≠ 0#w)
    (hpresent : b.freqAt sym ≠ 0#w) : effect (.loadPair sym) b = raiseError .dupSymbol b :=
  (loadPairBlock_executes hm sym).trans (by rw [loadPairBody, if_neg hdin, if_pos hpresent])

/-- A load that succeeds changes one entry of the table and RESP (R53, R54). -/
theorem entry_written (sym : Sym) (v : BitVec w) (b : Block w) :
    (respondOk (writeFreq sym v b)).freqAt sym = v ∧
      (∀ s, s ≠ sym → (respondOk (writeFreq sym v b)).freqAt s = b.freqAt s) ∧
      respondOk (writeFreq sym v b) = { b with freq := (respondOk (writeFreq sym v b)).freq, resp := .ok } :=
  ⟨freqAt_writeFreq_self sym v b, fun _ hs => freqAt_writeFreq_ne hs v b, rfl⟩

end effects

/-- Settles O11: the state check of R85, the one write of R53, and the sym form of R45. -/
theorem setFreqEffect : Obligations.SetFreqEffect := by
  refine ⟨fun c b sym => ?_, fun v hop hhigh => ?_,
    fun c b hm hop => runSampled_symWord_raises hm (.inl hop)⟩
  · simp only [exec_mk]
    refine ⟨fun hm => ⟨_, rfl, ?_⟩, fun hm => ?_⟩
    · rw [effect_setFreq_idle hm]
      exact entry_written sym b.din b
    · rw [effect_of_badState (by rw [hm]; rfl)]
      rfl
  · exact decode_setFreq_of_fields hop hhigh

/-- Settles O12: the state check of R85, the two checks of R54 in R91's order, and the sym form of R45. -/
theorem loadPairEffect : Obligations.LoadPairEffect := by
  refine ⟨fun c b sym => ?_, fun v hop hhigh => ?_,
    fun c b hm hop => runSampled_symWord_raises hm (.inr (.inl hop))⟩
  · simp only [exec_mk]
    refine ⟨fun hm hdin habsent => ⟨_, rfl, ?_⟩, fun hm hdin => ?_, fun hm hdin hpresent => ?_, fun hm => ?_⟩
    · rw [effect_loadPair_enters hm hdin habsent]
      exact entry_written sym b.din b
    · rw [effect_loadPair_zeroFreq hm sym hdin]
      rfl
    · rw [effect_loadPair_dupSymbol hm hdin hpresent]
      rfl
    · rw [effect_of_badState (by rw [hm]; rfl)]
      rfl
  · exact decode_loadPair_of_fields hop hhigh

end Sys2Proof.Machine
end

section
/-! PROOFS. Loading a table by a session of LOAD_PAIR or SET_FREQ commands (R53 to R55). -/

namespace Sys2Proof.Machine

variable {w : Nat}

/-! Tables, and the pairs they hold. -/

theorem tableAt_ext {table table' : Vector (BitVec w) 256}
    (h : ∀ s : Sym, tableAt table s = tableAt table' s) : table = table' := by
  refine Vector.ext fun i hi => ?_
  have hidx : (BitVec.ofNat 8 i).toNat = i := (BitVec.toNat_ofNat _ _).trans (Nat.mod_eq_of_lt hi)
  simpa only [tableAt, hidx] using h (BitVec.ofNat 8 i)

/-- The table has exactly these entries, and zero elsewhere. -/
structure HoldsPairs (table : Vector (BitVec w) 256) (pairs : List (Sym × BitVec w)) : Prop where
  entry : ∀ q ∈ pairs, tableAt table q.1 = q.2
  absent : ∀ s, s ∉ pairs.map Prod.fst → tableAt table s = 0#w

section holds

variable {table table' : Vector (BitVec w) 256} {pairs pairs' : List (Sym × BitVec w)}

theorem HoldsPairs.unique (h : HoldsPairs table pairs) (h' : HoldsPairs table' pairs) : table = table' := by
  refine tableAt_ext fun s => ?_
  by_cases hs : s ∈ pairs.map Prod.fst
  · obtain ⟨q, hq, rfl⟩ := List.mem_map.1 hs
    rw [h.entry q hq, h'.entry q hq]
  · rw [h.absent s hs, h'.absent s hs]

theorem HoldsPairs.perm (h : HoldsPairs table pairs) (hp : pairs'.Perm pairs) : HoldsPairs table pairs' where
  entry q hq := h.entry q (hp.mem_iff.1 hq)
  absent s hs := h.absent s (mt (hp.map Prod.fst).mem_iff.2 hs)

/-- A pair of frequency zero says no more than its absence. -/
theorem HoldsPairs.filter_nonzero (h : HoldsPairs table pairs) :
    HoldsPairs table (pairs.filter (fun q => q.2 ≠ 0#w)) where
  entry q hq := h.entry q (List.mem_of_mem_filter hq)
  absent s hs := by
    by_contra hne
    have hmem : s ∈ pairs.map Prod.fst := not_not.1 (mt (h.absent s) hne)
    obtain ⟨q, hq, rfl⟩ := List.mem_map.1 hmem
    have hq' : q.2 ≠ 0#w := h.entry q hq ▸ hne
    exact hs (List.mem_map_of_mem (List.mem_filter.2 ⟨hq, decide_eq_true hq'⟩))

end holds

/-- The table after these pairs are written, first pair first. -/
def loadTable (table : Vector (BitVec w) 256) : List (Sym × BitVec w) → Vector (BitVec w) 256
  | [] => table
  | q :: rest => loadTable (table.set q.1.toNat q.2 (by have := q.1.isLt; omega)) rest

theorem tableAt_loadTable_of_notMem {pairs : List (Sym × BitVec w)} {s : Sym}
    (hs : s ∉ pairs.map Prod.fst) (table : Vector (BitVec w) 256) :
    tableAt (loadTable table pairs) s = tableAt table s := by
  induction pairs generalizing table with
  | nil => rfl
  | cons q rest ih =>
    obtain ⟨hne, hs⟩ := not_or.1 (mt List.mem_cons.2 hs)
    exact (ih hs _).trans (tableAt_set_ne table hne q.2 _)

theorem tableAt_loadTable_of_mem {pairs : List (Sym × BitVec w)} (hnodup : (pairs.map Prod.fst).Nodup)
    {q : Sym × BitVec w} (hq : q ∈ pairs) (table : Vector (BitVec w) 256) :
    tableAt (loadTable table pairs) q.1 = q.2 := by
  induction pairs generalizing table with
  | nil => cases hq
  | cons x rest ih =>
    obtain ⟨hx, hnodup⟩ := List.nodup_cons.1 hnodup
    obtain rfl | hq := List.mem_cons.1 hq
    · exact (tableAt_loadTable_of_notMem hx _).trans (tableAt_set_self table q.1 q.2 _)
    · exact ih hnodup hq _

theorem loadTable_holdsPairs {table : Vector (BitVec w) 256} {pairs : List (Sym × BitVec w)}
    (hempty : ∀ s : Sym, tableAt table s = 0#w) (hnodup : (pairs.map Prod.fst).Nodup) :
    HoldsPairs (loadTable table pairs) pairs where
  entry _ hq := tableAt_loadTable_of_mem hnodup hq table
  absent s hs := (tableAt_loadTable_of_notMem hs table).trans (hempty s)

/-! The session. -/

/-- An IDLE block, not BUSY, with this table, to which the host drives these samples next. -/
structure Loading (table : Vector (BitVec w) 256) (host : List (PortIn w)) (b : Block w) : Prop where
  mode : b.mode = .idle
  building : b.building = none
  freq : b.freq = table
  host : b.host = host

/-- The samples with which the host offers these commands. -/
def offers (cmds : List (Command w)) : List (PortIn w) := cmds.map (fun p => offer p.1 p.2)

theorem offering_loading {b : Block w} (hm : b.mode = .idle) (hidle : b.building = none)
    (cmds : List (Command w)) : Loading b.freq (offers cmds) (b.offering cmds) := ⟨hm, hidle, rfl, rfl⟩

theorem session_mk (c : Config) (b : Block c.freqBits) (cmds : List (Command c.freqBits)) :
    session ⟨c, b⟩ cmds = .next ⟨c, stepBlock^[cmds.length] (b.offering cmds)⟩ :=
  run_core_mk _ c _

/-- Where the host offers an instruction, the step is its effect. -/
theorem Loading.stepBlock_eq {table : Vector (BitVec w) 256} {i : Instr} {v : BitVec w}
    {host : List (PortIn w)} {b : Block w} (h : Loading table (offer (encode i) v :: host) b) :
    stepBlock b = effect i (sample (offer (encode i) v) (withHost host b)) := by
  rw [stepBlock_of_offer h.building h.host rfl rfl]
  exact sampledEffect_of_decode (decode_encode i)

/-- `mk` makes a command that enters this pair where its symbol is absent (R53, R54). -/
def Enters (mk : Sym → Instr) (q : Sym × BitVec w) : Prop :=
  ∀ b : Block w, b.mode = .idle → b.din = q.2 → b.freqAt q.1 = 0#w →
    effect (mk q.1) b = respondOk (writeFreq q.1 q.2 b)

theorem setFreq_enters (q : Sym × BitVec w) : Enters .setFreq q :=
  fun _ hm hdin _ => hdin ▸ effect_setFreq_idle hm q.1

theorem loadPair_enters {q : Sym × BitVec w} (hq : q.2 ≠ 0#w) : Enters .loadPair q :=
  fun _ hm hdin habsent => hdin ▸ effect_loadPair_enters hm (hdin.trans_ne hq) habsent

/-- The commands that `mk` makes of the pairs. -/
def loadCommands (mk : Sym → Instr) (pairs : List (Sym × BitVec w)) : List (Command w) :=
  pairs.map (fun q => (encode (mk q.1), q.2))

theorem setFreqCommands_eq (pairs : List (Sym × BitVec w)) :
    setFreqCommands pairs = loadCommands .setFreq pairs := rfl

theorem loadPairCommands_eq (pairs : List (Sym × BitVec w)) :
    loadPairCommands pairs = loadCommands .loadPair pairs := rfl

@[simp] theorem loadCommands_length (mk : Sym → Instr) (pairs : List (Sym × BitVec w)) :
    (loadCommands mk pairs).length = pairs.length := by simp [loadCommands]

theorem Loading.enter {mk : Sym → Instr} {q : Sym × BitVec w} {table : Vector (BitVec w) 256}
    {host : List (PortIn w)} {b : Block w} (hmk : Enters mk q) (habsent : tableAt table q.1 = 0#w)
    (h : Loading table (offer (encode (mk q.1)) q.2 :: host) b) :
    Loading (table.set q.1.toNat q.2 (by have := q.1.isLt; omega)) host (stepBlock b) := by
  rw [h.stepBlock_eq]
  obtain ⟨hm, hidle, rfl, -⟩ := h
  rw [hmk (sample (offer (encode (mk q.1)) q.2) (withHost host b)) hm rfl habsent]
  exact ⟨hm, hidle, rfl, rfl⟩

/-- Pairs of distinct absent symbols are all entered, one command after the other (R55). -/
theorem Loading.load {mk : Sym → Instr} {pairs : List (Sym × BitVec w)} {table : Vector (BitVec w) 256}
    {host : List (PortIn w)} {b : Block w} (hmk : ∀ q ∈ pairs, Enters mk q)
    (hnodup : (pairs.map Prod.fst).Nodup) (habsent : ∀ q ∈ pairs, tableAt table q.1 = 0#w)
    (h : Loading table (offers (loadCommands mk pairs) ++ host) b) :
    Loading (loadTable table pairs) host (stepBlock^[pairs.length] b) := by
  induction pairs generalizing table b with
  | nil => exact h
  | cons q rest ih =>
    obtain ⟨hmkq, hmk⟩ := List.forall_mem_cons.1 hmk
    obtain ⟨hq, hnodup⟩ := List.nodup_cons.1 hnodup
    obtain ⟨habsentq, habsent⟩ := List.forall_mem_cons.1 habsent
    refine ih hmk hnodup (fun x hx => ?_) (h.enter hmkq habsentq)
    have hne : x.1 ≠ q.1 := fun hxq => hq (hxq ▸ List.mem_map_of_mem hx)
    exact (tableAt_set_ne table hne q.2 _).trans (habsent x hx)

/-- Loading an empty IDLE block leaves it IDLE with exactly the pairs, ready for what the host offers next. -/
theorem load_empty {mk : Sym → Instr} {pairs : List (Sym × BitVec w)} {b : Block w}
    (hm : b.mode = .idle) (hidle : b.building = none) (hempty : ∀ s : Sym, b.freqAt s = 0#w)
    (hmk : ∀ q ∈ pairs, Enters mk q) (hnodup : (pairs.map Prod.fst).Nodup) (more : List (Command w)) :
    ∃ table, HoldsPairs table pairs ∧ Loading table (offers more)
      (stepBlock^[pairs.length] (b.offering (loadCommands mk pairs ++ more))) := by
  refine ⟨loadTable b.freq pairs, loadTable_holdsPairs hempty hnodup, ?_⟩
  have h := offering_loading hm hidle (loadCommands mk pairs ++ more)
  rw [offers, List.map_append] at h
  exact h.load hmk hnodup fun q _ => hempty q.1

/-- A session of loads alone (R55). -/
theorem session_loads {c : Config} {b : Block c.freqBits} {mk : Sym → Instr}
    {pairs : List (Sym × BitVec c.freqBits)} (hm : b.mode = .idle) (hidle : b.building = none)
    (hempty : ∀ s : Sym, b.freqAt s = 0#_) (hmk : ∀ q ∈ pairs, Enters mk q)
    (hnodup : (pairs.map Prod.fst).Nodup) :
    ∃ t : Block c.freqBits, session ⟨c, b⟩ (loadCommands mk pairs) = .next ⟨c, t⟩ ∧ t.mode = .idle ∧
      HoldsPairs t.freq pairs := by
  obtain ⟨table, hholds, h⟩ := load_empty hm hidle hempty hmk hnodup []
  rw [List.append_nil] at h
  refine ⟨_, session_mk c b _, ?_⟩
  rw [loadCommands_length]
  exact ⟨h.mode, h.freq ▸ hholds⟩

/-- Settles O35: each load enters its pair, and a table is determined by its nonzero pairs. -/
theorem loadingGivesTheTable : Obligations.LoadingGivesTheTable := by
  intro c b pairs hm hidle hempty hnodup
  simp only [setFreqCommands_eq, loadPairCommands_eq]
  obtain ⟨t, hset, htm, ht⟩ := session_loads hm hidle hempty (fun q _ => setFreq_enters q) hnodup
  have hnonzero : ∀ q ∈ pairs.filter (fun q => q.2 ≠ 0#_), Enters .loadPair q :=
    fun q hq => loadPair_enters (of_decide_eq_true (List.mem_filter.1 hq).2)
  have hnodup' : ((pairs.filter (fun q => q.2 ≠ 0#_)).map Prod.fst).Nodup :=
    hnodup.sublist (List.filter_sublist.map _)
  obtain ⟨t', hload, -, ht'⟩ := session_loads hm hidle hempty hnonzero hnodup'
  refine ⟨fun hne => ?_, ⟨t, hset, htm, ht.entry, ht.absent⟩,
    t, t', hset, hload, ht.filter_nonzero.unique ht'⟩
  obtain ⟨u, hu, hum, hholds⟩ :=
    session_loads hm hidle hempty (fun q hq => loadPair_enters (hne q hq)) hnodup
  exact ⟨u, hu, hum, hholds.entry, hholds.absent⟩

end Sys2Proof.Machine
end

section
/-! PROOFS. BUILD's result is a function of the table, and the header pairs rebuild it (R55, R60, R72, R79). -/

namespace Sys2Proof.Machine

variable {w : Nat}

/-! The free values do not matter: the loop reads written records only. -/

theorem freqOf_draw {nodes : List (Node w)} {i : Idx} (h : i.toNat < nodes.length) (d d' : Nat) :
    freqOf d nodes i = freqOf d' nodes i := by
  rw [freqOf, nodeIn_draw h d d', freqOf]

theorem insertPos_draw {nodes : List (Node w)} {work : List Idx} (h : ∀ x ∈ work, x.toNat < nodes.length)
    (d d' f : Nat) : insertPos d nodes work f = insertPos d' nodes work f := by
  unfold insertPos
  induction work with
  | nil => rfl
  | cons x rest ih =>
    obtain ⟨hx, hrest⟩ := List.forall_mem_cons.1 h
    rw [List.findIdx_cons, List.findIdx_cons, ih hrest, freqOf_draw hx d d']

theorem mergeStep_draw {F : Forest w} (h : ∀ x ∈ F.work, x.toNat < F.nodes.length)
    (hlen : 1 < F.work.length) (d d' : Nat) : mergeStep d F = mergeStep d' F := by
  obtain ⟨front, y, x, hw⟩ := exists_last_two hlen
  have hx := freqOf_draw (h x (by simp [hw])) d d'
  have hy := freqOf_draw (h y (by simp [hw])) d d'
  have hfront : ∀ z ∈ front, z.toNat < F.nodes.length := fun z hz => h z (by simp [hw, hz])
  rw [mergeStep_eq hw, mergeStep_eq hw, mergedNode, mergedNode, hx, hy, insertPos_draw hfront d d']

theorem Forest.Grown.mergeLoop_draw {d : Nat} {table : Vector (BitVec w) 256}
    (hsum : tableSum table ≤ 2 ^ w - 1) (d' fuel : Nat) {F : Forest w} (hF : F.Grown d table) :
    Machine.mergeLoop d fuel F = Machine.mergeLoop d' fuel F := by
  induction fuel generalizing F with
  | zero => rfl
  | succ fuel ih =>
    unfold Machine.mergeLoop
    split
    next hlen => rw [ih (hF.merge hsum hlen), mergeStep_draw hF.written hlen d d']
    next => rfl

theorem builtForest_draw {table : Vector (BitVec w) 256} (hsum : tableSum table ≤ 2 ^ w - 1) (d d' : Nat) :
    builtForest d table = builtForest d' table :=
  (Forest.Grown.seed d table).mergeLoop_draw hsum d' _

/-- Two blocks with one table get the same records and the same results (R72). -/
theorem buildWrites_sameResults {b b' : Block w} (hfreq : b'.freq = b.freq)
    (hne : presentSyms b.freq ≠ []) (hsum : tableSum b.freq ≤ 2 ^ w - 1) :
    SameResults (buildWrites b) (buildWrites b') := by
  have hF : builtForest b'.draws b.freq = builtForest b.draws b.freq := builtForest_draw hsum _ _
  have hlen := builtForest_nodes_length (d := b.draws) hne hsum
  have hroot := builtForest_root_toNat (d := b.draws) hne hsum
  have hpos := List.length_pos_iff.2 hne
  have hmax : (buildWrites b').maxfreq = (buildWrites b).maxfreq := by
    rw [buildWrites_maxfreq, buildWrites_maxfreq, hfreq, hF, nodeIn_draw (i := 0#9) (by simp; omega)]
  constructor
  case total =>
    rw [buildWrites_total, buildWrites_total, hfreq, hF, nodeIn_draw (by omega)]
  case maxfreq => exact hmax
  case fwbytes => rw [buildWrites_fwbytes, buildWrites_fwbytes, hmax]
  case leafcnt | nodecnt | root | rootLeaf | arena => simp [hfreq, hF]

/-! The header pairs of a built tree. -/

/-- A BUILD in IDLE that ends in BUILT passed the input checks (R57). -/
theorem buildBlock_built {b : Block w} (hm : b.mode = .idle) (hbuilt : (buildBlock b).mode = .built) :
    presentSyms b.freq ≠ [] ∧ tableSum b.freq ≤ 2 ^ w - 1 ∧ buildBlock b = buildWrites b := by
  have hbody : buildBlock b = buildBody b := by simp [buildBlock, hm, legality]
  rw [hbody] at hbuilt ⊢
  obtain ⟨-, h⟩ | ⟨-, -, h⟩ | h := buildBody_cases b
  · simp [h] at hbuilt
  · simp [h] at hbuilt
  · exact h

/-- The present symbols in the seed order, with their frequencies: the header of a table (R58, R79). -/
def headerPairs (table : Vector (BitVec w) 256) : List (Sym × BitVec w) :=
  (seedList table).map (fun s => (s, tableAt table s))

@[simp] theorem headerPairs_length (table : Vector (BitVec w) 256) :
    (headerPairs table).length = (presentSyms table).length := by simp [headerPairs]

theorem leafPairs_length (b : Block w) : (leafPairs b).length = b.leafcnt.toNat := by simp [leafPairs]

/-- The leaves are at most 256, which LEAFCNT's 9 bits hold (R19). -/
theorem buildWrites_leafcnt_toNat (b : Block w) :
    (buildWrites b).leafcnt.toNat = (presentSyms b.freq).length := by
  have hle := presentSyms_length_le b.freq
  rw [buildWrites_leafcnt, BitVec.toNat_ofNat, Nat.mod_eq_of_lt (by omega)]

/-- READ_LEAF returns the header of the table that was built (R60, R76). -/
theorem leafPairs_buildWrites {b : Block w} (hsum : tableSum b.freq ≤ 2 ^ w - 1) :
    leafPairs (buildWrites b) = headerPairs b.freq := by
  have hcnt := buildWrites_leafcnt_toNat b
  refine List.ext_getElem (by rw [leafPairs_length, hcnt, headerPairs_length]) fun k _ hk => ?_
  rw [headerPairs_length] at hk
  have hle := presentSyms_length_le b.freq
  have hidx : (BitVec.ofNat 9 k).toNat = k := (BitVec.toNat_ofNat _ _).trans (Nat.mod_eq_of_lt (by omega))
  have hread := readLeafBlock_shows (k := BitVec.ofNat 9 k) (buildWrites_mode b) (by omega)
  rw [buildWrites_nodeAt, builtForest_leaf hsum (by rw [seedList_length]; omega)] at hread
  simp [leafPairs, headerPairs, hread, leafNode, hidx]

theorem headerPairs_syms (table : Vector (BitVec w) 256) :
    (headerPairs table).map Prod.fst = seedList table := by
  simp [headerPairs, Function.comp_def]

/-- A table holds its own header pairs (R55). -/
theorem holdsPairs_headerPairs (table : Vector (BitVec w) 256) :
    HoldsPairs table (headerPairs table) where
  entry q hq := by
    obtain ⟨s, -, rfl⟩ := List.mem_map.1 hq
    rfl
  absent s hs := by
    rw [headerPairs_syms, mem_seedList] at hs
    exact not_not.1 hs

theorem headerPairs_nonzero {table : Vector (BitVec w) 256} {q : Sym × BitVec w}
    (hq : q ∈ headerPairs table) : q.2 ≠ 0#w := by
  obtain ⟨s, hs, rfl⟩ := List.mem_map.1 hq
  exact mem_seedList.1 hs

theorem headerPairs_nodup (table : Vector (BitVec w) 256) :
    ((headerPairs table).map Prod.fst).Nodup := by
  rw [headerPairs_syms]
  exact (seedList_perm table).nodup_iff.2 (presentSyms_nodup table)

/-- A BUILD offered to a loaded block builds from its table (R56, R57). -/
theorem Loading.stepBlock_build {table : Vector (BitVec w) 256} {v : BitVec w} {host : List (PortIn w)}
    {b : Block w} (h : Loading table (offer (encode .build) v :: host) b) (hne : presentSyms table ≠ [])
    (hsum : tableSum table ≤ 2 ^ w - 1) : ∃ u : Block w, u.freq = table ∧ stepBlock b = buildWrites u := by
  refine ⟨sample (offer (encode .build) v) (withHost host b), h.freq, h.stepBlock_eq.trans ?_⟩
  have hfreq := h.freq
  subst hfreq
  exact buildBlock_builds h.mode hne hsum

/-- The header pairs of a table, in any order and followed by BUILD, build an empty block from that table. -/
theorem session_rebuilds {c : Config} {b : Block c.freqBits} {table : Vector (BitVec c.freqBits) 256}
    {pairs : List (Sym × BitVec c.freqBits)} (hm : b.mode = .idle) (hidle : b.building = none)
    (hempty : ∀ s : Sym, b.freqAt s = 0#_) (hp : pairs.Perm (headerPairs table)) (hne : presentSyms table ≠ [])
    (hsum : tableSum table ≤ 2 ^ c.freqBits - 1) :
    ∃ u : Block c.freqBits, u.freq = table ∧
      session ⟨c, b⟩ (loadPairCommands pairs ++ [(encode .build, 0#_)]) = .next ⟨c, buildWrites u⟩ := by
  have hmk : ∀ q ∈ pairs, Enters .loadPair q :=
    fun q hq => loadPair_enters (headerPairs_nonzero (hp.mem_iff.1 hq))
  have hnodup : (pairs.map Prod.fst).Nodup := (hp.map _).nodup_iff.2 (headerPairs_nodup table)
  obtain ⟨table', hholds, h⟩ := load_empty hm hidle hempty hmk hnodup [(encode .build, 0#_)]
  obtain rfl : table' = table := hholds.unique ((holdsPairs_headerPairs table).perm hp)
  obtain ⟨u, hu, hbuild⟩ := Loading.stepBlock_build (host := []) h hne hsum
  refine ⟨u, hu, ?_⟩
  rw [session_mk, loadPairCommands_eq, List.length_append, loadCommands_length, List.length_singleton,
    Function.iterate_succ_apply', hbuild]

/-- Settles O36: the loaded pairs restore the table, and BUILD's result is a function of the table. -/
theorem headerPairsRebuildTheTree : Obligations.HeaderPairsRebuildTheTree := by
  intro c b t b' pairs hm hexec hbuilt hm' hidle hempty hp
  rw [exec_mk, next_inj] at hexec
  subst hexec
  obtain ⟨hne, hsum, heq⟩ := buildBlock_built hm hbuilt
  have heffect : effect .build b = buildWrites b := heq
  rw [heffect, leafPairs_buildWrites hsum] at hp
  obtain ⟨u, hfreq, hsession⟩ := session_rebuilds hm' hidle hempty hp hne hsum
  obtain ⟨hleafcnt, hnodecnt, hroot, htotal, hmaxfreq, hfwbytes, hrootLeaf, harena⟩ :=
    buildWrites_sameResults hfreq hne hsum
  rw [heffect]
  exact ⟨buildWrites u, hsession, buildWrites_mode u, harena, hroot, hleafcnt, hnodecnt, htotal, hmaxfreq,
    hfwbytes, hrootLeaf, by rw [buildWrites_freq, buildWrites_freq, hfreq]⟩

end Sys2Proof.Machine
end

section
/-! PROOFS. BUILD's input checks, its seeding, and its statistics (R57, R58, R68, R69). -/

namespace Sys2Proof.Machine

variable {w : Nat}

/-! The input checks (R57, R88, R89). -/

theorem effect_build_idle {b : Block w} (hm : b.mode = .idle) : effect .build b = buildBody b := by
  simp [effect, buildBlock, hm, legality]

theorem effect_build_emptyTable {b : Block w} (hm : b.mode = .idle) (hempty : presentSyms b.freq = []) :
    effect .build b = raiseError .emptyTable b :=
  (effect_build_idle hm).trans (if_pos hempty)

theorem effect_build_freqOverflow {b : Block w} (hm : b.mode = .idle) (hne : presentSyms b.freq ≠ [])
    (hsum : 2 ^ w - 1 < tableSum b.freq) : effect .build b = raiseError .freqOverflow b := by
  rw [effect_build_idle hm, buildBody, if_neg hne, if_pos hsum]

/-- Settles O17: the state check of R85, then the two checks of R57 in their order. -/
theorem buildInputChecks : Obligations.BuildInputChecks := by
  intro c b
  simp only [exec_mk]
  refine ⟨fun hm hzero => ?_, fun hm hex hsum => ?_, fun hm => ?_⟩
  · have hempty : presentSyms b.freq = [] := by
      by_contra hne
      obtain ⟨s, hs⟩ := presentSyms_ne_nil.1 hne
      exact hs (hzero s)
    rw [effect_build_emptyTable hm hempty]
    rfl
  · rw [effect_build_freqOverflow hm (presentSyms_ne_nil.2 hex) hsum]
    rfl
  · rw [effect_of_badState (by rw [hm]; rfl)]
    rfl

/-! The seeding (R58). -/

/-- Settles O27: insertion by the seed order sorts the present symbols. -/
theorem seedingSortsPresentSymbols : Obligations.SeedingSortsPresentSymbols := fun _ table =>
  ⟨fun _ => mem_seedList, (seedList_pairwise table).imp seedBefore_iff.1⟩

/-! The byte width (R69). -/

theorem lt_two_pow_iff_bitlen_le {m k : Nat} : m < 2 ^ k ↔ bitlen m ≤ k := by
  unfold bitlen
  split
  next hm => simp [hm]
  next hm => rw [Nat.succ_le_iff, Nat.log2_lt hm]

theorem lt_byte_pow_iff {m k : Nat} : m < 256 ^ k ↔ ceilDiv (bitlen m) 8 ≤ k := by
  rw [show 256 = 2 ^ 8 by rfl, ← Nat.pow_mul, lt_two_pow_iff_bitlen_le, ceilDiv]
  omega

theorem fieldBytes_least (m : Nat) :
    1 ≤ fieldBytes m ∧ m < 256 ^ fieldBytes m ∧ ∀ k, 1 ≤ k → m < 256 ^ k → fieldBytes m ≤ k :=
  ⟨le_max_left _ _, lt_byte_pow_iff.2 (le_max_right _ _), fun _ hk hm => max_le hk (lt_byte_pow_iff.1 hm)⟩

/-- Settles O28: `k` bytes hold `m` exactly where `8 * k` bits do. -/
theorem fieldBytesLeast : Obligations.FieldBytesLeast :=
  ⟨fieldBytes_least, fun c v => fieldBytes_toNat_le c.le v⟩

/-- Settles O21: the valid tree's results, with the root's and node 0's frequencies as BUILD reads them. -/
theorem buildStatistics : Obligations.BuildStatistics := by
  intro c b hm hex hsum
  have hne : presentSyms b.freq ≠ [] := presentSyms_ne_nil.2 hex
  have hvalid := buildWrites_resultsValid (b := b) hne hsum c.le
  obtain ⟨hbound, hheld⟩ := buildWrites_maxfreq_spec hne hsum
  obtain ⟨hpos, hholds, hleast⟩ := fieldBytes_least (buildWrites b).maxfreq.toNat
  rw [← hvalid.fwbytes] at hpos hholds hleast
  have htotal : (buildWrites b).total = ((buildWrites b).nodeAt (buildWrites b).root).freq := by
    rw [buildWrites_total, buildWrites_nodeAt, buildWrites_root]
  have hmaxfreq : (buildWrites b).maxfreq = ((buildWrites b).nodeAt 0#9).freq := by
    rw [buildWrites_maxfreq, buildWrites_nodeAt]
  exact ⟨buildWrites b, exec_build_of_checks hm hne hsum, buildWrites_mode b, buildWrites_leafcnt_toNat b,
    hvalid.total, htotal, hmaxfreq, hbound, hheld, hpos, hholds, hleast⟩

end Sys2Proof.Machine
end

section
/-! PROOFS. The merges one by one: they never overflow, each puts its node where R65 says, and the last one ends
the build (R62 to R66, R73). -/

namespace Sys2Proof.Machine

variable {w : Nat}

/-- Settles O23: at every stage of the loop the roots carry the whole table, so two of them carry no more. -/
theorem mergeNeverOverflows : Obligations.MergeNeverOverflows := by
  intro w draw steps table front a b hsum hw
  have hF : (mergeLoop draw steps (seedForest table)).Grown draw table :=
    (Forest.Grown.seed draw table).mergeLoop hsum steps
  exact ⟨hF.merge_sum_le hw, hF.mergedNode_freq hw hsum⟩

/-! Where the merged node goes (R65). -/

section insert

variable {d f : Nat} {nodes : List (Node w)} {work : List Idx}

theorem insertPos_le_length : insertPos d nodes work f ≤ work.length := List.findIdx_le_length

/-- Before the position every element is at least as frequent. -/
theorem le_freqOf_of_lt_insertPos {j : Nat} {x : Idx} (hj : j < insertPos d nodes work f)
    (hx : work[j]? = some x) : f ≤ freqOf d nodes x := by
  obtain ⟨hlt, rfl⟩ := List.getElem?_eq_some_iff.1 hx
  simpa using List.not_of_lt_findIdx hj

/-- At the position stands the first smaller element. -/
theorem freqOf_insertPos_lt {x : Idx} (hx : work[insertPos d nodes work f]? = some x) :
    freqOf d nodes x < f := by
  obtain ⟨hlt, rfl⟩ := List.getElem?_eq_some_iff.1 hx
  exact of_decide_eq_true (List.findIdx_getElem (w := hlt))

theorem insertPos_eq_length (h : ∀ x ∈ work, f ≤ freqOf d nodes x) :
    insertPos d nodes work f = work.length :=
  List.findIdx_eq_length.2 fun x hx => by simpa using h x hx

/-- In an ordered sequence every element behind the position is smaller too. -/
theorem freqOf_lt_of_insertPos_le (h : work.Pairwise (fun x y => freqOf d nodes y ≤ freqOf d nodes x))
    {j : Nat} {x : Idx} (hj : insertPos d nodes work f ≤ j) (hx : work[j]? = some x) :
    freqOf d nodes x < f := by
  obtain ⟨hlt, rfl⟩ := List.getElem?_eq_some_iff.1 hx
  have hat := freqOf_insertPos_lt (List.getElem?_eq_getElem (hj.trans_lt hlt))
  obtain heq | hbehind := hj.eq_or_lt
  · simpa only [heq] using hat
  · exact (List.pairwise_iff_getElem.1 h _ _ _ _ hbehind).trans_lt hat

variable {p : Nat} (v : Idx) (hp : p ≤ work.length)

include hp

theorem insertAt_getElem?_self : (insertAt work p v)[p]? = some v := by
  simp [insertAt, hp]

theorem insertAt_getElem?_of_lt {j : Nat} (hj : j < p) : (insertAt work p v)[j]? = work[j]? := by
  rw [insertAt, List.getElem?_append_left (by simp; omega), List.getElem?_take_of_lt hj]

theorem insertAt_getElem?_succ {j : Nat} (hj : p ≤ j) : (insertAt work p v)[j + 1]? = work[j]? := by
  have hidx : j + 1 - p = (j - p) + 1 := by omega
  rw [insertAt, List.getElem?_append_right (by simp; omega), List.length_take, Nat.min_eq_left hp, hidx,
    List.getElem?_cons_succ, List.getElem?_drop, Nat.add_sub_cancel' hj]

end insert

/-- Settles O24: the position is the first one of a smaller element, and insertion moves the rest by one. -/
theorem mergedNodeInsertedAfterEquals : Obligations.MergedNodeInsertedAfterEquals := by
  intro w draw nodes work f v p
  have hp : p ≤ work.length := insertPos_le_length
  refine ⟨hp, fun j x => le_freqOf_of_lt_insertPos, fun x => freqOf_insertPos_lt, insertPos_eq_length,
    fun hord j x hx => ⟨fun hle => ?_, fun hlt => ?_⟩, insertAt_getElem?_self v hp,
    fun j => insertAt_getElem?_of_lt v hp, fun j => insertAt_getElem?_succ v hp⟩
  · by_contra hj
    have := freqOf_lt_of_insertPos_le hord (Nat.not_lt.1 hj) hx
    omega
  · by_contra hj
    have := le_freqOf_of_lt_insertPos (Nat.not_le.1 hj) hx
    omega

/-! The merges, counted. -/

theorem mergeLoop_of_le {d : Nat} (k : Nat) {F : Forest w} (h : F.work.length ≤ 1) : mergeLoop d k F = F := by
  cases k with
  | zero => rfl
  | succ k => exact if_neg (Nat.not_lt.2 h)

/-- One more turn of the loop is one more turn at its end (R62). -/
theorem mergeLoop_succ (d k : Nat) (F : Forest w) :
    mergeLoop d (k + 1) F = mergeLoop d 1 (mergeLoop d k F) := by
  induction k generalizing F with
  | zero => rfl
  | succ k ih =>
    by_cases hlen : 1 < F.work.length
    · have hturn (fuel : Nat) : mergeLoop d (fuel + 1) F = mergeLoop d fuel (mergeStep d F) := if_pos hlen
      rw [hturn, hturn, ih]
    · simp only [mergeLoop_of_le _ (Nat.not_lt.1 hlen)]

theorem mergeLoop_succ_of_lt {d k : Nat} {F : Forest w} (h : 1 < (mergeLoop d k F).work.length) :
    mergeLoop d (k + 1) F = mergeStep d (mergeLoop d k F) :=
  (mergeLoop_succ d k F).trans (if_pos h)

/-- Each merge leaves one element less (R66). -/
theorem mergeLoop_work_length {d k : Nat} {F : Forest w} (hk : k < F.work.length) :
    (mergeLoop d k F).work.length + k = F.work.length := by
  induction k with
  | zero => rfl
  | succ k ih =>
    have hlen := ih (by omega)
    have hlt : 1 < (mergeLoop d k F).work.length := by omega
    obtain ⟨hstep, -⟩ := mergeStep_lengths (d := d) hlt
    rw [mergeLoop_succ_of_lt hlt]
    omega

section seeded

variable {d k : Nat} {table : Vector (BitVec w) 256}

@[simp] theorem seedForest_work_length (table : Vector (BitVec w) 256) :
    (seedForest table).work.length = (presentSyms table).length := by simp [seedForest_work]

/-- As many merges as leaves, less one, are the whole build (R66). -/
theorem builtForest_eq_mergeLoop (d : Nat) {n : Nat} (hn : n = (presentSyms table).length) (hpos : 1 ≤ n) :
    builtForest d table = mergeLoop d (n - 1) (seedForest table) := by
  have hlen := mergeLoop_work_length (d := d) (k := n - 1) (F := seedForest table) (by simp; omega)
  rw [seedForest_work_length] at hlen
  rw [builtForest, seedForest_work_length, ← hn, ← Nat.sub_add_cancel hpos, mergeLoop_succ,
    Nat.add_sub_cancel, mergeLoop_of_le]
  omega

/-- What merge `k` takes and writes (R62 to R65). -/
theorem seedForest_merge (hsum : tableSum table ≤ 2 ^ w - 1) (hk : k + 1 < (presentSyms table).length) :
    let F := mergeLoop d k (seedForest table)
    ∃ (front : List Idx) (b a : Idx), F.work = front ++ [b, a] ∧
      freqOf d F.nodes a ≤ freqOf d F.nodes b ∧
      (mergedNode d F.nodes a b).freq.toNat = freqOf d F.nodes a + freqOf d F.nodes b ∧
      mergeLoop d (k + 1) (seedForest table) = ⟨F.nodes ++ [mergedNode d F.nodes a b],
        insertAt front (insertPos d F.nodes front (freqOf d F.nodes a + freqOf d F.nodes b))
          (BitVec.ofNat 9 ((presentSyms table).length + k))⟩ := by
  intro F
  have hF : F.Grown d table := (Forest.Grown.seed d table).mergeLoop hsum k
  have hlen : F.work.length + k = (presentSyms table).length := by
    rw [← seedForest_work_length]
    exact mergeLoop_work_length (by rw [seedForest_work_length]; omega)
  have hnodes : F.nodes.length = (presentSyms table).length + k := by
    have := hF.count
    omega
  have hlt : 1 < F.work.length := by omega
  obtain ⟨front, b, a, hw⟩ := exists_last_two hlt
  refine ⟨front, b, a, hw, (hF.last_two_lowest hw).1, hF.mergedNode_freq hw hsum, ?_⟩
  rw [mergeLoop_succ_of_lt hlt, ← hnodes]
  exact mergeStep_eq hw

end seeded

/-- Settles O19: the loop's stages one by one, the last of which is what BUILD writes. -/
theorem buildSeedsThenMerges : Obligations.BuildSeedsThenMerges := by
  intro c b n hm hn hpos hsum F f
  replace hn : n = (presentSyms b.freq).length := hn
  have hne : presentSyms b.freq ≠ [] := List.length_pos_iff.1 (hn ▸ hpos)
  have hvalid := buildWrites_resultsValid (b := b) hne hsum c.le
  have hbuilt : builtForest b.draws b.freq = F (n - 1) := builtForest_eq_mergeLoop b.draws hn hpos
  refine ⟨?_, ?_, fun k s hs => ?_, fun k hk => ?_, buildWrites b, exec_build_of_checks hm hne hsum,
    buildWrites_mode b, ?_, ?_, hvalid.work, ?_, fun _ => ?_⟩
  · exact hn ▸ seedForest_work b.freq
  · exact hn ▸ (by simp : (seedForest b.freq).nodes.length = (presentSyms b.freq).length)
  · change (seedForest b.freq).nodes[k]? = some (leafNode b.freq s)
    rw [seedForest_nodes, List.getElem?_map, hs, Option.map_some]
  · obtain ⟨front, x, a, hw, hle, hfreq, hnext⟩ :=
      seedForest_merge (d := b.draws) (table := b.freq) (k := k) hsum (hn ▸ hk)
    exact ⟨front, x, a, _, hw, hle, hfreq, congrArg Forest.nodes hnext, hn ▸ congrArg Forest.work hnext⟩
  · rw [buildWrites_arena, hbuilt]
  · rw [buildWrites_work, hbuilt]
  · rw [hvalid.nodecnt, buildWrites_leafTotal, hn]
  · rw [hvalid.root, buildWrites_leafTotal, hn]

end Sys2Proof.Machine
end

section
/-! PROOFS. BUILD's answer, failing or not, is a function of the table (R72). -/

namespace Sys2Proof.Machine

variable {w : Nat}

section observed

variable {b t : Block w}

theorem Block.NoTree.sameResults (h : b.NoTree) (h' : t.NoTree) : SameResults b t where
  leafcnt := h'.leafcnt.trans h.leafcnt.symm
  nodecnt := h'.nodecnt.trans h.nodecnt.symm
  root := h'.root.trans h.root.symm
  total := h'.total.trans h.total.symm
  maxfreq := h'.maxfreq.trans h.maxfreq.symm
  fwbytes := h'.fwbytes.trans h.fwbytes.symm
  rootLeaf := h'.rootLeaf.trans h.rootLeaf.symm
  arena := h'.arena.trans h.arena.symm

/-- Outside BUSY the status word shows STATE, ERR and ROOT_LEAF (R15). -/
theorem statusWord_congr (hb : b.building = none) (ht : t.building = none) (hmode : t.mode = b.mode)
    (herr : t.err = b.err) (hroot : t.rootLeaf = b.rootLeaf) : t.statusWord = b.statusWord := by
  simp only [Block.statusWord, errField_eq hb, errField_eq ht, stateField_eq hb, stateField_eq ht,
    Block.rootLeafField, shown_eq hb, shown_eq ht, hmode, herr, hroot]

/-- A failing BUILD leaves an IDLE block with no tree to show (R82). -/
theorem raiseError_sameResults (hb : b.NoTree) (ht : t.NoTree) (code : ErrCode) :
    SameResults (raiseError code b) (raiseError code t) :=
  have h := hb.sameResults ht
  ⟨h.leafcnt, h.nodecnt, h.root, h.total, h.maxfreq, h.fwbytes, h.rootLeaf, h.arena⟩

theorem SameResults.nodeAt_eq (h : SameResults b t) {i : Idx} (hi : i.toNat < b.arena.length) :
    t.nodeAt i = b.nodeAt i := by
  rw [Block.nodeAt, h.arena]
  exact nodeIn_draw hi _ _

end observed

/-- BUILD gives two blocks with one table, both IDLE and safe, the same answer and the same results, and every
record below NODECNT is written. -/
theorem effect_build_sameResults (hw : w ≤ 2040) {b b' : Block w} (h : b.Inv) (h' : b'.Inv)
    (hm : b.mode = .idle) (hm' : b'.mode = .idle) (hfreq : b.freq = b'.freq) :
    (effect .build b').mode = (effect .build b).mode ∧ (effect .build b').err = (effect .build b).err ∧
      SameResults (effect .build b) (effect .build b') ∧
      (effect .build b).nodecnt.toNat ≤ (effect .build b).arena.length := by
  have herr : b'.err = b.err := (h'.err.2 (by simp [hm'])).trans (h.err.2 (by simp [hm])).symm
  have hnone := h.idle hm
  have hnone' := h'.idle hm'
  by_cases hne : presentSyms b.freq = []
  · rw [effect_build_emptyTable hm hne, effect_build_emptyTable hm' (hfreq ▸ hne)]
    exact ⟨rfl, rfl, raiseError_sameResults hnone hnone' _, by simp [hnone.nodecnt]⟩
  by_cases hsum : 2 ^ w - 1 < tableSum b.freq
  · rw [effect_build_freqOverflow hm hne hsum, effect_build_freqOverflow hm' (hfreq ▸ hne) (hfreq ▸ hsum)]
    exact ⟨rfl, rfl, raiseError_sameResults hnone hnone' _, by simp [hnone.nodecnt]⟩
  · replace hsum := Nat.not_lt.1 hsum
    have hbuild : effect .build b = buildWrites b := buildBlock_builds hm hne hsum
    have hbuild' : effect .build b' = buildWrites b' := buildBlock_builds hm' (hfreq ▸ hne) (hfreq ▸ hsum)
    have hvalid := buildWrites_resultsValid hne hsum hw
    rw [hbuild, hbuild']
    exact ⟨by simp, by simpa using herr, buildWrites_sameResults hfreq.symm hne hsum,
      (hvalid.nodecnt.trans hvalid.written.symm).le⟩

theorem effect_build_building (b : Block w) : (effect .build b).building = b.building := by
  have h := effect_answer .build b
  generalize effect .build b = t at h
  cases h <;> simp

/-- Settles O22: the checks read the table alone, and the loop reads written records only. -/
theorem buildDependsOnTableOnly : Obligations.BuildDependsOnTableOnly := by
  intro c b b' t t' h h' hm hm' hidle hidle' hfreq ht ht'
  rw [exec_mk, next_inj] at ht ht'
  subst ht ht'
  obtain ⟨hmode, herr, hs, hwritten⟩ := effect_build_sameResults c.le h h' hm hm' hfreq
  have hstatus := statusWord_congr ((effect_build_building b).trans hidle)
    ((effect_build_building b').trans hidle') hmode herr hs.rootLeaf
  exact ⟨hstatus.symm, hs.leafcnt.symm, hs.nodecnt.symm, hs.root.symm, hs.total.symm, hs.maxfreq.symm,
    hs.fwbytes.symm, fun i hi => (hs.nodeAt_eq (hi.trans_le hwritten)).symm⟩

end Sys2Proof.Machine
end

section
/-! PROOFS. The tree in BUILT: READ_LEAF and READ_NODE agree on the leaves, and no word but CLEAR changes it
(R60, R70, R76). -/

namespace Sys2Proof.Machine

variable {w : Nat}

/-- Settles O34: below LEAFCNT stand the leaves, whose child fields are NIL already. -/
theorem readLeafMatchesReadNode : Obligations.ReadLeafMatchesReadNode := by
  intro c b k h hm hk
  have hvalid := h.built hm
  have hleafcnt := hvalid.results.leafcnt
  have hnodecnt := hvalid.results.nodecnt
  obtain ⟨htag, -, -, hleft, hright⟩ := hvalid.leaves.record k (hleafcnt ▸ hk)
  have hleaf : effect (.readLeaf k) b = _ := readLeafBlock_shows hm (Nat.not_le.2 hk)
  have hnode : effect (.readNode k) b = _ := readNodeBlock_shows hm (by omega)
  rw [hleft, hright, ← hleaf] at hnode
  refine ⟨_, exec_mk _ c b, hnode ▸ exec_mk _ c b, ?_, ?_⟩
  · rw [hleaf, respondOk_rTag, setReadOut_rTag, htag]
  · rw [hleaf, respondOk_resp]

section built

variable {b t : Block w}

/-- What stays in BUILT: the table, the result registers, and the records, of which the unwritten ones are
named by the draws (R70). -/
structure FrozenPart (w : Nat) where
  freq : Vector (BitVec w) 256
  arena : List (Node w)
  draws : Nat
  root : Idx
  leafcnt : Idx
  nodecnt : Idx
  total : BitVec w
  maxfreq : BitVec w
  fwbytes : BitVec 8
  rootLeaf : Bool

def Block.frozenPart (b : Block w) : FrozenPart w :=
  ⟨b.freq, b.arena, b.draws, b.root, b.leafcnt, b.nodecnt, b.total, b.maxfreq, b.fwbytes, b.rootLeaf⟩

/-- In BUILT no word but CLEAR touches the tree. -/
theorem Answer.frozenPart_eq {d : Decoded} (h : Answer d b t) (hm : b.mode = .built)
    (hd : d ≠ .instr .clear) : t.frozenPart = b.frozenPart := by
  cases h with
  | clears hclear => exact absurd hclear hd
  | writesFreq _ _ hmode | builds _ hmode => simp [hm] at hmode
  | raises | ignores | readsRecord | readsFreq => rfl

/-- A step from BUILT took a reset or a CLEAR, or left the tree alone. -/
theorem Transaction.frozenPart_eq (h : Transaction b t) (hm : b.mode = .built) :
    (∃ p rest, b.host = p :: rest ∧ (p.rst = true ∨ (p.cmdValid = true ∧ p.cmd = 0x0000#16))) ∨
      t.frozenPart = b.frozenPart := by
  cases h with
  | @resets p rest hhost hrst => exact .inl ⟨p, rest, hhost, .inl hrst⟩
  | completes => exact .inr ((effect_answer .build (withBuilding none b)).frozenPart_eq hm (by simp))
  | @accepts p rest hidle hhost hvalid =>
    by_cases hclear : p.cmd = 0x0000#16
    · exact .inl ⟨p, rest, hhost, .inr ⟨hvalid, hclear⟩⟩
    · have ha := sampledEffect_answer (sample p (withHost rest b))
      exact .inr (ha.frozenPart_eq hm (mt decode_eq_clear.1 hclear))
  | passes => exact .inr rfl

end built

/-- Settles O43: each of the four things a step can be is a reset, a CLEAR, or no change to the tree. -/
theorem builtTreeIsFrozen : Obligations.BuiltTreeIsFrozen := by
  intro c b t hm hstep
  rw [step_mk, next_inj] at hstep
  have h := (stepBlock_transaction b).frozenPart_eq hm
  rw [hstep] at h
  refine h.imp_right fun hs => ?_
  simp only [Block.frozenPart, FrozenPart.mk.injEq] at hs
  obtain ⟨hfreq, harena, hdraws, hroot, hleafcnt, hnodecnt, htotal, hmaxfreq, hfwbytes, hrootLeaf⟩ := hs
  have hnode : ∀ i : Idx, t.nodeAt i = b.nodeAt i := fun i => by
    rw [Block.nodeAt, harena, hdraws, Block.nodeAt]
  exact ⟨hfreq, harena, hroot, hleafcnt, hnodecnt, htotal, hmaxfreq, hfwbytes, hrootLeaf, hnode⟩

end Sys2Proof.Machine
end

section
/-! PROOFS. The built tree is optimal (R74): the depths of any binary tree fill the code space, and moving the
two lowest weights to a deepest pair of leaves, as every merge supposes, never costs more. -/

namespace Sys2Proof.Machine

variable {w : Nat}

/-! Depths that fill the code space. -/

/-- The depths are those of a full binary tree no higher than `h`, by Kraft's equality. -/
structure FillsCodeSpace (h : Nat) (depths : Multiset Nat) : Prop where
  le : ∀ l ∈ depths, l ≤ h
  kraft : (depths.map (fun l => 2 ^ (h - l))).sum = 2 ^ h

/-- A deepest leaf has another one beside it: were it alone, the rest would fill the space only up to a
multiple of twice its share. -/
theorem FillsCodeSpace.deepest_twice {h m : Nat} {depths : Multiset Nat}
    (hf : FillsCodeSpace h (m ::ₘ depths)) (hmax : ∀ l ∈ depths, l ≤ m) (hne : depths ≠ 0) :
    m ∈ depths := by
  by_contra hm
  have hlt : ∀ l ∈ depths, l < m := fun l hl => (hmax l hl).lt_of_ne fun h => hm (h ▸ hl)
  obtain ⟨l₀, hl₀⟩ := Multiset.exists_mem_of_ne_zero hne
  have hpos := hlt l₀ hl₀
  have hle := hf.le m (by simp)
  have hrest : 2 ^ (h - m + 1) ∣ (depths.map (fun l => 2 ^ (h - l))).sum := by
    refine Multiset.dvd_sum fun x hx => ?_
    obtain ⟨l, hl, rfl⟩ := Multiset.mem_map.1 hx
    have := hlt l hl
    exact Nat.pow_dvd_pow 2 (by omega)
  have hall : 2 ^ (h - m + 1) ∣ 2 ^ h := Nat.pow_dvd_pow 2 (by omega)
  rw [← hf.kraft, Multiset.map_cons, Multiset.sum_cons, ← Nat.dvd_add_iff_left hrest,
    Nat.pow_dvd_pow_iff_le_right (by decide)] at hall
  omega

theorem FillsCodeSpace.exists_deepest_pair {h : Nat} {depths : Multiset Nat}
    (hf : FillsCodeSpace h depths) (hcard : 2 ≤ depths.card) :
    ∃ m rest, depths = (m + 1) ::ₘ (m + 1) ::ₘ rest ∧ ∀ l ∈ depths, l ≤ m + 1 := by
  obtain ⟨d, hd, hmax⟩ := Multiset.exists_max_image id (s := depths) (by rintro rfl; simp at hcard)
  obtain ⟨others, rfl⟩ := Multiset.exists_cons_of_mem hd
  have hne : others ≠ 0 := by rintro rfl; simp at hcard
  obtain ⟨rest, rfl⟩ := Multiset.exists_cons_of_mem
    (hf.deepest_twice (fun l hl => hmax l (by simp [hl])) hne)
  cases d with
  | succ m => exact ⟨m, rest, rfl, hmax⟩
  | zero =>
    have := hf.kraft
    simp only [Multiset.map_cons, Multiset.sum_cons, Nat.sub_zero] at this
    have := Nat.two_pow_pos h
    omega

/-- Two siblings give way to their parent. -/
theorem FillsCodeSpace.merge {h m : Nat} {rest : Multiset Nat}
    (hf : FillsCodeSpace h ((m + 1) ::ₘ (m + 1) ::ₘ rest)) : FillsCodeSpace h (m ::ₘ rest) := by
  have hle := hf.le (m + 1) (by simp)
  have hshare : 2 ^ (h - m) = 2 ^ (h - (m + 1)) + 2 ^ (h - (m + 1)) := by
    rw [← Nat.two_mul, ← Nat.pow_succ']
    congr 1
    omega
  refine ⟨Multiset.forall_mem_cons.2 ⟨by omega, fun l hl => hf.le l (by simp [hl])⟩, ?_⟩
  rw [← hf.kraft]
  simp only [Multiset.map_cons, Multiset.sum_cons, hshare, Nat.add_assoc]

/-! Weights at depths. -/

/-- The weighted path length of weights at depths (R74). -/
def pairsCost (pairs : Multiset (Nat × Nat)) : Nat := (pairs.map (fun q => q.1 * q.2)).sum

@[simp] theorem pairsCost_cons (q : Nat × Nat) (pairs : Multiset (Nat × Nat)) :
    pairsCost (q ::ₘ pairs) = q.1 * q.2 + pairsCost pairs := by simp [pairsCost]

@[simp] theorem pairsCost_add (pairs more : Multiset (Nat × Nat)) :
    pairsCost (pairs + more) = pairsCost pairs + pairsCost more := by simp [pairsCost]

/-- The exchange: the lowest weight can stand at a deepest place at no cost. -/
theorem exists_lowest_at_deepest {a m : Nat} {weights : Multiset Nat} {pairs : Multiset (Nat × Nat)}
    (hweights : pairs.map Prod.fst = a ::ₘ weights) (hlow : ∀ x ∈ weights, a ≤ x)
    (hm : m ∈ pairs.map Prod.snd) (hmax : ∀ l ∈ pairs.map Prod.snd, l ≤ m) :
    ∃ rest : Multiset (Nat × Nat), rest.map Prod.fst = weights ∧
      m ::ₘ rest.map Prod.snd = pairs.map Prod.snd ∧ a * m + pairsCost rest ≤ pairsCost pairs := by
  obtain ⟨⟨x, _⟩, hx, rfl⟩ := Multiset.mem_map.1 hm
  obtain ⟨others, rfl⟩ := Multiset.exists_cons_of_mem hx
  simp only [Multiset.map_cons] at *
  by_cases hxa : x = a
  · subst hxa
    exact ⟨others, (Multiset.cons_inj_right x).1 hweights, rfl, by simp⟩
  · have ha : a ∈ others.map Prod.fst := by
      have : a ∈ x ::ₘ others.map Prod.fst := by simp [hweights]
      exact (Multiset.mem_cons.1 this).resolve_left (Ne.symm hxa)
    obtain ⟨⟨_, l⟩, hl, rfl⟩ := Multiset.mem_map.1 ha
    obtain ⟨stay, rfl⟩ := Multiset.exists_cons_of_mem hl
    simp only [Multiset.map_cons] at *
    rw [Multiset.cons_swap, Multiset.cons_inj_right] at hweights
    refine ⟨(x, l) ::ₘ stay, by simpa using hweights, by simp, ?_⟩
    have := mul_add_mul_le_mul_add_mul (hlow x (by simp [← hweights])) (hmax l (by simp))
    simp only [pairsCost_cons]
    omega

/-- The two lowest weights can be siblings, so merging them saves their sum at least (R62 to R64). -/
theorem exists_merged_pairs {h a b : Nat} {weights : Multiset Nat} {pairs : Multiset (Nat × Nat)}
    (hweights : pairs.map Prod.fst = a ::ₘ b ::ₘ weights) (hab : a ≤ b) (hlow : ∀ x ∈ weights, b ≤ x)
    (hf : FillsCodeSpace h (pairs.map Prod.snd)) :
    ∃ merged : Multiset (Nat × Nat), merged.map Prod.fst = (a + b) ::ₘ weights ∧
      FillsCodeSpace h (merged.map Prod.snd) ∧ a + b + pairsCost merged ≤ pairsCost pairs := by
  have hcard : 2 ≤ (pairs.map Prod.snd).card := by
    have := congrArg Multiset.card hweights
    simp only [Multiset.card_map, Multiset.card_cons] at this ⊢
    omega
  obtain ⟨m, deps, hdeps, hmax⟩ := hf.exists_deepest_pair hcard
  have hlow' : ∀ x ∈ b ::ₘ weights, a ≤ x :=
    Multiset.forall_mem_cons.2 ⟨hab, fun x hx => hab.trans (hlow x hx)⟩
  obtain ⟨pairs', hfst', hsnd', hcost'⟩ :=
    exists_lowest_at_deepest hweights hlow' (m := m + 1) (by simp [hdeps]) hmax
  have hmax' : ∀ l ∈ pairs'.map Prod.snd, l ≤ m + 1 :=
    fun l hl => hmax l (by rw [← hsnd']; exact Multiset.mem_cons_of_mem hl)
  have hdeps' := hsnd'.trans hdeps
  rw [Multiset.cons_inj_right] at hdeps'
  obtain ⟨rest, hfst, hsnd, hcost⟩ :=
    exists_lowest_at_deepest hfst' hlow (m := m + 1) (by simp [hdeps']) hmax'
  refine ⟨(a + b, m) ::ₘ rest, by simp [hfst], ?_, ?_⟩
  · rw [← hsnd', ← hsnd] at hf
    simpa using hf.merge
  · rw [pairsCost_cons]
    linarith [Nat.add_mul a b m, Nat.mul_succ a m, Nat.mul_succ b m]

/-! A binary tree's weights and depths. -/

/-- The leaves' weights and depths, the root standing at this depth. -/
def CodeTree.pairsAt (table : Vector (BitVec w) 256) : Nat → CodeTree → Multiset (Nat × Nat)
  | depth, .leaf s => {((tableAt table s).toNat, depth)}
  | depth, .node l r => l.pairsAt table (depth + 1) + r.pairsAt table (depth + 1)

/-- The height of a tree. -/
def CodeTree.height : CodeTree → Nat
  | .leaf _ => 0
  | .node l r => max l.height r.height + 1

section codeTree

variable (table : Vector (BitVec w) 256)

theorem CodeTree.pairsCost_pairsAt (T : CodeTree) (depth : Nat) :
    pairsCost (T.pairsAt table depth) = T.costAt table depth := by
  induction T generalizing depth with
  | leaf s => simp [pairsAt, costAt, pairsCost]
  | node l r ihl ihr => simp [pairsAt, costAt, ihl, ihr]

theorem CodeTree.pairsAt_fst (T : CodeTree) (depth : Nat) :
    (T.pairsAt table depth).map Prod.fst = ↑(T.syms.map (fun s => (tableAt table s).toNat)) := by
  induction T generalizing depth with
  | leaf s => rfl
  | node l r ihl ihr => simp [pairsAt, syms, ihl, ihr]

/-- A subtree fills its root's share of the code space. -/
theorem CodeTree.pairsAt_snd {h : Nat} (T : CodeTree) {depth : Nat} (hh : depth + T.height ≤ h) :
    (∀ l ∈ (T.pairsAt table depth).map Prod.snd, l ≤ h) ∧
      (((T.pairsAt table depth).map Prod.snd).map (fun l => 2 ^ (h - l))).sum = 2 ^ (h - depth) := by
  induction T generalizing depth with
  | leaf s => simpa [pairsAt, height] using hh
  | node l r ihl ihr =>
    rw [height] at hh
    obtain ⟨hl, hlsum⟩ := ihl (depth := depth + 1) (by omega)
    obtain ⟨hr, hrsum⟩ := ihr (depth := depth + 1) (by omega)
    simp only [pairsAt, Multiset.map_add, Multiset.sum_add, hlsum, hrsum]
    refine ⟨fun x hx => (Multiset.mem_add.1 hx).elim (hl x) (hr x), ?_⟩
    rw [← Nat.two_mul, ← Nat.pow_succ']
    congr 1
    omega

theorem CodeTree.pairsAt_fillsCodeSpace (T : CodeTree) :
    FillsCodeSpace T.height ((T.pairsAt table 0).map Prod.snd) :=
  have h := T.pairsAt_snd table (Nat.zero_add T.height).le
  ⟨h.1, h.2⟩

end codeTree

/-! The merge loop against any such tree. -/

theorem internalSum_append_merged (nodes : List (Node w)) (d : Nat) (a b : Idx) :
    internalSum (nodes ++ [mergedNode d nodes a b]) =
      internalSum nodes + (mergedNode d nodes a b).freq.toNat := by
  simp [internalSum, mergedNode]

theorem internalSum_leaves (table : Vector (BitVec w) 256) (l : List Sym) :
    internalSum (l.map (leafNode table)) = 0 := by
  simp [internalSum, leafNode, List.sum_eq_zero_iff]

/-- A merge replaces the two lowest root weights by their sum. -/
theorem Forest.Grown.merge_weights {d : Nat} {table : Vector (BitVec w) 256} {F : Forest w}
    {front : List Idx} {a b : Idx} (hF : F.Grown d table) (hw : F.work = front ++ [b, a])
    (hsum : tableSum table ≤ 2 ^ w - 1) :
    (((mergeStep d F).work.map (freqOf d (mergeStep d F).nodes) : List Nat) : Multiset Nat) =
      (freqOf d F.nodes a + freqOf d F.nodes b) ::ₘ ↑(front.map (freqOf d F.nodes)) := by
  have hkept : front.map (freqOf d (mergeStep d F).nodes) = front.map (freqOf d F.nodes) :=
    List.map_congr_left fun x hx => freqOf_mergeStep_of_lt hw (hF.front_written hw x hx)
  rw [Multiset.cons_coe, Multiset.coe_eq_coe, ← hkept, ← hF.freqOf_mergeStep_next hw hsum]
  exact (mergeStep_work_perm hw).map _

/-- From any stage of the build on, the merges add no more than the roots cost as the leaves of a tree. -/
theorem Forest.Grown.internalSum_mergeLoop_le {d h : Nat} {table : Vector (BitVec w) 256}
    (hsum : tableSum table ≤ 2 ^ w - 1) (fuel : Nat) {F : Forest w} (hF : F.Grown d table)
    {pairs : Multiset (Nat × Nat)} (hpairs : pairs.map Prod.fst = ↑(F.work.map (freqOf d F.nodes)))
    (hf : FillsCodeSpace h (pairs.map Prod.snd)) :
    internalSum (Machine.mergeLoop d fuel F).nodes ≤ internalSum F.nodes + pairsCost pairs := by
  induction fuel generalizing F pairs with
  | zero => exact Nat.le_add_right _ _
  | succ fuel ih =>
    unfold Machine.mergeLoop
    split
    next hlen =>
      obtain ⟨front, b, a, hw⟩ := exists_last_two hlen
      obtain ⟨hab, hfront⟩ := hF.last_two_lowest hw
      have hweights : pairs.map Prod.fst = freqOf d F.nodes a ::ₘ freqOf d F.nodes b ::ₘ
          ↑(front.map (freqOf d F.nodes)) := by
        rw [hpairs, hw, Multiset.cons_coe, Multiset.cons_coe, Multiset.coe_eq_coe, List.map_append]
        exact List.perm_append_comm.trans (List.Perm.swap _ _ _)
      obtain ⟨merged, hmerged, hfills, hcost⟩ :=
        exists_merged_pairs hweights hab (by simpa using hfront) hf
      have hstep := ih (hF.merge hsum hlen) (hmerged.trans (hF.merge_weights hw hsum).symm) hfills
      rw [mergeStep_nodes hw, internalSum_append_merged, hF.mergedNode_freq hw hsum] at hstep
      omega
    next => exact Nat.le_add_right _ _

/-- Settles O33: the seeding's roots are the leaves of the other tree, and the merges cost no more than it. -/
theorem builtTreeIsOptimal : Obligations.BuiltTreeIsOptimal := by
  intro c b t other hm hexec hbuilt hsyms
  rw [exec_mk, next_inj] at hexec
  subst hexec
  obtain ⟨-, hsum, heq⟩ := buildBlock_built hm hbuilt
  have hpairs : (other.pairsAt b.freq 0).map Prod.fst =
      ↑((seedForest b.freq).work.map (freqOf b.draws (seedForest b.freq).nodes)) := by
    rw [other.pairsAt_fst, seedForest_freqs, Multiset.coe_eq_coe]
    exact (hsyms.trans (seedList_perm b.freq).symm).map _
  have hle := (Forest.Grown.seed b.draws b.freq).internalSum_mergeLoop_le hsum
    (seedForest b.freq).work.length hpairs (other.pairsAt_fillsCodeSpace b.freq)
  rw [seedForest_nodes, internalSum_leaves, Nat.zero_add, other.pairsCost_pairsAt] at hle
  have heffect : effect .build b = buildWrites b := heq
  rw [heffect, buildWrites_arena]
  exact hle

end Sys2Proof.Machine
end

section
/-! PROOFS. The paths in a valid tree (R71, R78): every node but the root has one parent, so every node has
one path label. -/

namespace Sys2Proof.Machine

variable {w : Nat}

/-! Parents and children. -/

/-- The record is internal, and `i` is its child on the edge of this bit (R79). -/
def Node.HasChild (n : Node w) (bit : Bool) (i : Idx) : Prop :=
  n.tag = .internal ∧ (if bit then n.right else n.left) = i

/-- The children of a record, none for a leaf. -/
def Node.children (n : Node w) : List Idx :=
  match n.tag with
  | .leaf => []
  | .internal => [n.left, n.right]

theorem Node.mem_children {n : Node w} {i : Idx} : i ∈ n.children ↔ ∃ bit, n.HasChild bit i := by
  unfold Node.children Node.HasChild
  cases n.tag <;> simp [or_comm, eq_comm]

theorem childCount_eq_count (nodes : List (Node w)) (i : Idx) :
    childCount nodes i = (nodes.flatMap Node.children).count i := by
  induction nodes with
  | nil => rfl
  | cons n rest ih =>
    have hcons : childCount (n :: rest) i = n.children.count i + childCount rest i := by
      cases htag : n.tag <;> simp [childCount, Node.children, htag, List.count_cons, Nat.add_comm]
    rw [hcons, ih, List.flatMap_cons, List.count_append]

/-- The first `k` indices, in ascending order. -/
def idxRange (k : Nat) : List Idx := (List.range k).map (BitVec.ofNat 9)

section idxRange

variable {k : Nat} (hk : k ≤ 512)

include hk

theorem mem_idxRange {i : Idx} : i ∈ idxRange k ↔ i.toNat < k := by
  rw [idxRange, List.mem_map]
  constructor
  · rintro ⟨l, hl, rfl⟩
    rw [List.mem_range] at hl
    rw [BitVec.toNat_ofNat]
    omega
  · exact fun hi => ⟨i.toNat, List.mem_range.2 hi, by simp⟩

theorem idxRange_nodup : (idxRange k).Nodup := by
  refine List.Nodup.map_on (fun l hl m hm h => ?_) List.nodup_range
  have := congrArg BitVec.toNat h
  simp only [List.mem_range, BitVec.toNat_ofNat] at *
  omega

/-- The first `k` records of an arena that holds no others. -/
theorem arena_eq_map_nodeAt {b : Block w} (hlen : b.arena.length = k) :
    b.arena = (idxRange k).map b.nodeAt := by
  refine List.ext_getElem (by simp [idxRange, hlen]) fun l hl _ => ?_
  have hidx : (BitVec.ofNat 9 l).toNat = l :=
    (BitVec.toNat_ofNat _ _).trans (Nat.mod_eq_of_lt (by omega))
  simp only [idxRange, List.getElem_map, List.getElem_range]
  exact (nodeIn_of_getElem? (by rw [hidx, List.getElem?_eq_getElem hl])).symm

end idxRange

/-! The walk (R79). -/

section walk

variable {b : Block w} {i : Idx}

theorem walkFrom_concat {bits : List Bool} {bit : Bool} {k : Idx} :
    walkFrom b i (bits ++ [bit]) = some k ↔
      ∃ j, walkFrom b i bits = some j ∧ (b.nodeAt j).HasChild bit k := by
  induction bits generalizing i with
  | nil => cases htag : (b.nodeAt i).tag <;> simp [walkFrom, Node.HasChild, htag]
  | cons first rest ih => cases htag : (b.nodeAt i).tag <;> simp [walkFrom, htag, ih]

theorem isPathLabel_nil : IsPathLabel b i [] ↔ i = b.root := by
  simp [IsPathLabel, walk, walkFrom, eq_comm]

/-- A child's label is its parent's and the bit of the edge (R78). -/
theorem isPathLabel_concat {bits : List Bool} {bit : Bool} :
    IsPathLabel b i (bits ++ [bit]) ↔ ∃ j, IsPathLabel b j bits ∧ (b.nodeAt j).HasChild bit i :=
  walkFrom_concat

end walk

/-! The valid tree (R71). -/

section validTree

variable {b : Block w} {i j j' : Idx} {bit bit' : Bool} (h : b.TreeValid)

include h

theorem Block.TreeValid.leafTotal_le : 1 ≤ b.leafTotal ∧ b.leafTotal ≤ 256 :=
  ⟨h.results.nonempty, presentSyms_length_le b.freq⟩

theorem Block.TreeValid.leafTotal_le_of_internal (htag : (b.nodeAt j).tag = .internal) :
    b.leafTotal ≤ j.toNat := by
  by_contra hlt
  obtain ⟨hleaf, -⟩ := h.leaves.record j (by omega)
  simp [hleaf] at htag

/-- A child stands before its parent, and its sibling is another node. -/
theorem Block.TreeValid.child_lt (hj : j.toNat < 2 * b.leafTotal - 1)
    (hchild : (b.nodeAt j).HasChild bit i) : i.toNat < j.toNat := by
  obtain ⟨htag, rfl⟩ := hchild
  obtain ⟨-, -, hleft, hright, -⟩ := h.internals.record j (h.leafTotal_le_of_internal htag) hj
  cases bit
  · exact hleft
  · exact hright

theorem Block.TreeValid.arena_eq : b.arena = (idxRange (2 * b.leafTotal - 1)).map b.nodeAt :=
  arena_eq_map_nodeAt (by have := h.leafTotal_le; omega) h.results.written

theorem Block.TreeValid.mem_idxRange_nodes : j ∈ idxRange (2 * b.leafTotal - 1) ↔
    j.toNat < 2 * b.leafTotal - 1 :=
  mem_idxRange (by have := h.leafTotal_le; omega)

/-- The children of the nodes are all nodes but the root, each once. -/
theorem Block.TreeValid.children_perm :
    ((idxRange (2 * b.leafTotal - 1)).flatMap (fun j => (b.nodeAt j).children)).Perm
      (idxRange (2 * b.leafTotal - 2)) := by
  have hle : 2 * b.leafTotal - 2 ≤ 512 := by have := h.leafTotal_le; omega
  refine List.perm_iff_count.2 fun i => ?_
  have hcount : ((idxRange (2 * b.leafTotal - 1)).flatMap (fun j => (b.nodeAt j).children)).count i =
      childCount b.arena i := by
    rw [childCount_eq_count, h.arena_eq, List.flatMap_map]
  rw [(idxRange_nodup hle).count]
  simp only [mem_idxRange hle]
  by_cases hi : i.toNat < 2 * b.leafTotal - 1
  · have hroot : i = b.root ↔ ¬ i.toNat < 2 * b.leafTotal - 2 := by
      rw [← BitVec.toNat_inj, h.results.root]
      omega
    rw [hcount, h.internals.oneParent i hi]
    simp only [hroot, ite_not]
  · rw [if_neg (by omega), List.count_eq_zero]
    rintro hmem
    obtain ⟨j, hj, hchild⟩ := List.mem_flatMap.1 hmem
    obtain ⟨bit, hbit⟩ := Node.mem_children.1 hchild
    have hj := h.mem_idxRange_nodes.1 hj
    have := h.child_lt hj hbit
    omega

theorem Block.TreeValid.exists_parent (hi : i.toNat < 2 * b.leafTotal - 2) :
    ∃ j bit, j.toNat < 2 * b.leafTotal - 1 ∧ (b.nodeAt j).HasChild bit i := by
  have hmem : i ∈ idxRange (2 * b.leafTotal - 2) :=
    (mem_idxRange (by have := h.leafTotal_le; omega)).2 hi
  obtain ⟨j, hj, hchild⟩ := List.mem_flatMap.1 (h.children_perm.mem_iff.2 hmem)
  obtain ⟨bit, hbit⟩ := Node.mem_children.1 hchild
  exact ⟨j, bit, h.mem_idxRange_nodes.1 hj, hbit⟩

theorem Block.TreeValid.parent_unique (hj : j.toNat < 2 * b.leafTotal - 1)
    (hj' : j'.toNat < 2 * b.leafTotal - 1) (hchild : (b.nodeAt j).HasChild bit i)
    (hchild' : (b.nodeAt j').HasChild bit' i) : j = j' ∧ bit = bit' := by
  have hnodup := h.children_perm.nodup_iff.2 (idxRange_nodup (by have := h.leafTotal_le; omega))
  obtain ⟨-, hdisjoint⟩ := List.nodup_flatMap.1 hnodup
  obtain rfl : j = j' := by
    by_contra hne
    have hsymm : Std.Symm (List.Disjoint (α := Idx)) := ⟨fun _ _ hd => hd.symm⟩
    exact hdisjoint.forall (h.mem_idxRange_nodes.2 hj) (h.mem_idxRange_nodes.2 hj') hne
      (Node.mem_children.2 ⟨bit, hchild⟩) (Node.mem_children.2 ⟨bit', hchild'⟩)
  refine ⟨rfl, ?_⟩
  obtain ⟨htag, rfl⟩ := hchild
  obtain ⟨-, hsame⟩ := hchild'
  obtain ⟨-, -, -, -, hne⟩ := h.internals.record j (h.leafTotal_le_of_internal htag) hj
  cases bit <;> cases bit' <;> simp_all

/-! Path labels (R78). -/

theorem Block.TreeValid.root_lt : b.root.toNat < 2 * b.leafTotal - 1 := by
  have hroot := h.results.root
  have hpos := h.results.nonempty
  omega

/-- A walk stays in the tree. -/
theorem Block.TreeValid.lt_of_isPathLabel {bits : List Bool} (hbits : IsPathLabel b i bits) :
    i.toNat < 2 * b.leafTotal - 1 := by
  induction bits using List.reverseRecOn generalizing i with
  | nil => exact isPathLabel_nil.1 hbits ▸ h.root_lt
  | append_singleton bits bit ih =>
    obtain ⟨j, hj, hchild⟩ := isPathLabel_concat.1 hbits
    exact (h.child_lt (ih hj) hchild).trans (ih hj)

/-- Every node is reached through its parent, which stands nearer to the root. -/
theorem Block.TreeValid.exists_pathLabel {i : Idx} (hi : i.toNat < 2 * b.leafTotal - 1) :
    ∃ bits, IsPathLabel b i bits := by
  by_cases hroot : i.toNat < 2 * b.leafTotal - 2
  · obtain ⟨j, bit, hj, hchild⟩ := h.exists_parent hroot
    have hlt := h.child_lt hj hchild
    obtain ⟨bits, hbits⟩ := Block.TreeValid.exists_pathLabel hj
    exact ⟨bits ++ [bit], isPathLabel_concat.2 ⟨j, hbits, hchild⟩⟩
  · have hi : i = b.root := BitVec.eq_of_toNat_eq (by rw [h.results.root]; omega)
    exact ⟨[], isPathLabel_nil.2 hi⟩
termination_by 2 * b.leafTotal - 1 - i.toNat

/-- The root is no child. -/
theorem Block.TreeValid.not_isPathLabel_root_concat {bits : List Bool} :
    ¬ IsPathLabel b b.root (bits ++ [bit]) := by
  intro hbits
  obtain ⟨j, hj, hchild⟩ := isPathLabel_concat.1 hbits
  have hjlt := h.lt_of_isPathLabel hj
  have := h.child_lt hjlt hchild
  have := h.results.root
  omega

theorem Block.TreeValid.pathLabel_unique {bits bits' : List Bool} (hbits : IsPathLabel b i bits)
    (hbits' : IsPathLabel b i bits') : bits = bits' := by
  induction bits using List.reverseRecOn generalizing i bits' with
  | nil =>
    obtain rfl := isPathLabel_nil.1 hbits
    obtain rfl | ⟨rest, bit, rfl⟩ := List.eq_nil_or_concat' bits'
    · rfl
    · exact absurd hbits' h.not_isPathLabel_root_concat
  | append_singleton bits bit ih =>
    obtain rfl | ⟨bits', bit', rfl⟩ := List.eq_nil_or_concat' bits'
    · obtain rfl := isPathLabel_nil.1 hbits'
      exact absurd hbits h.not_isPathLabel_root_concat
    · obtain ⟨j, hj, hchild⟩ := isPathLabel_concat.1 hbits
      obtain ⟨j', hj', hchild'⟩ := isPathLabel_concat.1 hbits'
      obtain ⟨rfl, rfl⟩ :=
        h.parent_unique (h.lt_of_isPathLabel hj) (h.lt_of_isPathLabel hj') hchild hchild'
      rw [ih hj hj']

end validTree

/-- Settles O29: a label is followed up from child to parent, which is always one node on one edge. -/
theorem everyNodeHasOnePathLabel : Obligations.EveryNodeHasOnePathLabel := by
  intro c b h
  refine ⟨isPathLabel_nil.2 rfl, fun j bits hbits htag => ?_, fun i hi => ?_⟩
  · exact ⟨isPathLabel_concat.2 ⟨j, hbits, htag, rfl⟩, isPathLabel_concat.2 ⟨j, hbits, htag, rfl⟩⟩
  · obtain ⟨bits, hbits⟩ := h.exists_pathLabel (h.results.nodecnt ▸ hi)
    exact ⟨bits, hbits, fun bits' hbits' => h.pathLabel_unique hbits' hbits⟩

end Sys2Proof.Machine
end

section
/-! PROOFS. The weighted path length of a valid tree is the sum of its internal frequencies (R74): summed over
the internal nodes, the children's weighted depths are the nodes' own and their frequencies. -/

namespace Sys2Proof.Machine

variable {w : Nat}

/-- The indices of the internal nodes of a tree with `n` leaves (R64). -/
def innerIdx (n : Nat) : List Idx := (List.range (n - 1)).map (fun k => BitVec.ofNat 9 (n + k))

/-- The nodes are the leaves and then the internal nodes. -/
theorem idxRange_nodes {n : Nat} (hpos : 1 ≤ n) : idxRange (2 * n - 1) = idxRange n ++ innerIdx n := by
  rw [show 2 * n - 1 = n + (n - 1) by omega]
  simp [idxRange, innerIdx, List.range_add]

/-- The nodes are the root, which is the last, and the others. -/
theorem idxRange_root {n : Nat} {root : Idx} (hpos : 1 ≤ n) (hroot : root.toNat = 2 * n - 2) :
    idxRange (2 * n - 1) = idxRange (2 * n - 2) ++ [root] := by
  rw [show 2 * n - 1 = 2 * n - 2 + 1 by omega]
  simp [idxRange, List.range_succ, ← hroot]

/-- The weighted depth of a node (R74). -/
def weightedDepth (b : Block w) (depth : Idx → Nat) (i : Idx) : Nat := (b.nodeAt i).freq.toNat * depth i

/-- What a record adds to the sum of the internal frequencies (R74). -/
def Node.internalFreq (n : Node w) : Nat :=
  match n.tag with
  | .leaf => 0
  | .internal => n.freq.toNat

theorem internalSum_eq (nodes : List (Node w)) :
    internalSum nodes = (nodes.map Node.internalFreq).sum := rfl

section weights

variable {b : Block w} (h : b.TreeValid) {depth : Idx → Nat}

include h

/-- A sum over the nodes to which the leaves add nothing. -/
theorem Block.TreeValid.sum_nodes_eq_inner {f g : Idx → Nat}
    (hleaf : ∀ i, (b.nodeAt i).tag = .leaf → f i = 0)
    (hinner : ∀ j : Idx, j.toNat < 2 * b.leafTotal - 1 → (b.nodeAt j).tag = .internal → f j = g j) :
    ((idxRange (2 * b.leafTotal - 1)).map f).sum = ((innerIdx b.leafTotal).map g).sum := by
  obtain ⟨hpos, hle⟩ := h.leafTotal_le
  have hleaves : ∀ i ∈ idxRange b.leafTotal, f i = 0 := fun i hi => by
    obtain ⟨htag, -⟩ := h.leaves.record i ((mem_idxRange (by omega)).1 hi)
    exact hleaf i htag
  have hinners : ∀ j ∈ innerIdx b.leafTotal, f j = g j := fun j hj => by
    obtain ⟨k, hk, rfl⟩ := List.mem_map.1 hj
    have hk := List.mem_range.1 hk
    have hidx : (BitVec.ofNat 9 (b.leafTotal + k)).toNat = b.leafTotal + k :=
      (BitVec.toNat_ofNat _ _).trans (Nat.mod_eq_of_lt (by omega))
    obtain ⟨htag, -⟩ := h.internals.record (BitVec.ofNat 9 (b.leafTotal + k)) (by omega) (by omega)
    exact hinner _ (by omega) htag
  rw [idxRange_nodes hpos, List.map_append, List.sum_append, List.map_congr_left hleaves,
    List.map_congr_left hinners]
  simp

/-- Every node but the root is counted once as a child. -/
theorem Block.TreeValid.sum_children (g : Idx → Nat) (hroot : g b.root = 0) :
    ((idxRange (2 * b.leafTotal - 1)).map (fun j => ((b.nodeAt j).children.map g).sum)).sum =
      ((idxRange (2 * b.leafTotal - 1)).map g).sum := by
  have hperm := (h.children_perm.map g).sum_eq
  rw [List.map_flatMap, List.flatMap_def, List.sum_flatten, List.map_map] at hperm
  calc
    _ = ((idxRange (2 * b.leafTotal - 2)).map g).sum := hperm
    _ = _ := by simp [idxRange_root h.results.nonempty h.results.root, hroot]

/-- Both children stand one edge deeper than their parent, and carry its frequency together (R64). -/
theorem Block.TreeValid.sum_children_of_internal
    (hdepth : ∀ (j : Idx) (bit : Bool) (i : Idx), j.toNat < 2 * b.leafTotal - 1 →
      (b.nodeAt j).HasChild bit i → depth i = depth j + 1)
    {j : Idx} (hj : j.toNat < 2 * b.leafTotal - 1) (htag : (b.nodeAt j).tag = .internal) :
    ((b.nodeAt j).children.map (weightedDepth b depth)).sum =
      weightedDepth b depth j + (b.nodeAt j).freq.toNat := by
  have hsum := h.internals.sum j (h.leafTotal_le_of_internal htag) hj
  have hleft : depth (b.nodeAt j).left = depth j + 1 := hdepth j false _ hj ⟨htag, rfl⟩
  have hright : depth (b.nodeAt j).right = depth j + 1 := hdepth j true _ hj ⟨htag, rfl⟩
  simp only [Node.children, htag, List.map_cons, List.map_nil, List.sum_cons, List.sum_nil, weightedDepth,
    hleft, hright, hsum]
  ring

/-- The identity, when `depth` counts the edges from the root. -/
theorem Block.TreeValid.sum_weightedDepth (hroot : depth b.root = 0)
    (hdepth : ∀ (j : Idx) (bit : Bool) (i : Idx), j.toNat < 2 * b.leafTotal - 1 →
      (b.nodeAt j).HasChild bit i → depth i = depth j + 1) :
    ((idxRange b.leafTotal).map (weightedDepth b depth)).sum = internalSum b.arena := by
  have hall := h.sum_children (weightedDepth b depth) (by simp [weightedDepth, hroot])
  rw [h.sum_nodes_eq_inner (g := fun j => weightedDepth b depth j + (b.nodeAt j).freq.toNat)
      (fun i hi => by simp [Node.children, hi]) (fun j => h.sum_children_of_internal hdepth),
    List.sum_map_add, idxRange_nodes h.results.nonempty, List.map_append, List.sum_append] at hall
  rw [internalSum_eq, h.arena_eq, List.map_map,
    h.sum_nodes_eq_inner (g := fun j => (b.nodeAt j).freq.toNat)
      (fun i hi => by simp [Node.internalFreq, hi]) (fun j _ hj => by simp [Node.internalFreq, hj])]
  omega

theorem Block.TreeValid.weightedLength_eq {leafDepth : Nat → Nat}
    (hdepth : ∀ i : Idx, i.toNat < b.leafTotal → depth i = leafDepth i.toNat) :
    weightedLength b leafDepth = ((idxRange b.leafTotal).map (weightedDepth b depth)).sum := by
  obtain ⟨-, hle⟩ := h.leafTotal_le
  rw [weightedLength, h.results.leafcnt, idxRange, List.map_map]
  refine congrArg List.sum (List.map_congr_left fun k hk => ?_)
  have hk := List.mem_range.1 hk
  have hidx : (BitVec.ofNat 9 k).toNat = k := (BitVec.toNat_ofNat _ _).trans (Nat.mod_eq_of_lt (by omega))
  rw [Function.comp_apply, weightedDepth, hdepth _ (by omega), hidx]

/-- Every node's distance from the root, as the length of its path label (R78). -/
theorem Block.TreeValid.exists_depths :
    ∃ depth : Idx → Nat, ∀ (i : Idx) (bits : List Bool), IsPathLabel b i bits → depth i = bits.length := by
  have hlabel : ∀ i : Idx, ∃ d, ∀ bits, IsPathLabel b i bits → d = bits.length := by
    intro i
    by_cases hi : ∃ bits, IsPathLabel b i bits
    · obtain ⟨bits, hbits⟩ := hi
      exact ⟨bits.length, fun bits' hbits' => by rw [h.pathLabel_unique hbits hbits']⟩
    · exact ⟨0, fun bits hbits => absurd ⟨bits, hbits⟩ hi⟩
  exact ⟨fun i => (hlabel i).choose, fun i => (hlabel i).choose_spec⟩

end weights

/-- Settles O32: a child's label is one bit longer than its parent's. -/
theorem weightedLengthIsInternalSum : Obligations.WeightedLengthIsInternalSum := by
  intro c b leafDepth h hleaves
  obtain ⟨depth, hdepth⟩ := h.exists_depths
  have hroot : depth b.root = 0 := hdepth b.root [] (isPathLabel_nil.2 rfl)
  have hedge : ∀ (j : Idx) (bit : Bool) (i : Idx), j.toNat < 2 * b.leafTotal - 1 →
      (b.nodeAt j).HasChild bit i → depth i = depth j + 1 := by
    intro j bit i hj hchild
    obtain ⟨bits, hbits⟩ := h.exists_pathLabel hj
    rw [hdepth j bits hbits, hdepth i _ (isPathLabel_concat.2 ⟨j, hbits, hchild⟩), List.length_append,
      List.length_singleton]
  have hleaf : ∀ i : Idx, i.toNat < b.leafTotal → depth i = leafDepth i.toNat := by
    intro i hi
    obtain ⟨bits, hbits, hlen⟩ := hleaves i (h.results.leafcnt ▸ hi)
    rw [hdepth i bits hbits, hlen]
  exact (h.weightedLength_eq hleaf).trans (h.sum_weightedDepth hroot hedge)

end Sys2Proof.Machine
end

section
/-! PROOFS. The leaves' labels (R78, R80): no walk goes on from a leaf, and every edge leads to a lower index. -/

namespace Sys2Proof.Machine

variable {w : Nat}

section walk

variable {b : Block w} {i j : Idx}

/-- The walk along two pieces is the second piece, from where the first one ends. -/
theorem walkFrom_append (i : Idx) (bits rest : List Bool) :
    walkFrom b i (bits ++ rest) = (walkFrom b i bits).bind (fun k => walkFrom b k rest) := by
  induction bits generalizing i with
  | nil => rfl
  | cons bit bits ih => cases htag : (b.nodeAt i).tag <;> simp [walkFrom, htag, ih]

theorem walkFrom_leaf {bits : List Bool} (htag : (b.nodeAt i).tag = .leaf)
    (hwalk : walkFrom b i bits = some j) : i = j := by
  cases bits with
  | nil => exact Option.some.inj hwalk
  | cons bit bits => simp [walkFrom, htag] at hwalk

/-- A label that begins with a leaf's is the leaf's own. -/
theorem eq_of_isPathLabel_prefix {bits bits' : List Bool} (htag : (b.nodeAt i).tag = .leaf)
    (hbits : IsPathLabel b i bits) (hbits' : IsPathLabel b j bits') (hprefix : bits <+: bits') : i = j := by
  obtain ⟨rest, rfl⟩ := hprefix
  rw [IsPathLabel, walk, walkFrom_append] at hbits'
  obtain ⟨k, hk, hrest⟩ := Option.bind_eq_some_iff.1 hbits'
  obtain rfl : i = k := Option.some.inj (hbits.symm.trans hk)
  exact walkFrom_leaf htag hrest

end walk

section validTree

variable {b : Block w} {i : Idx} {bits : List Bool} (h : b.TreeValid)

include h

theorem Block.TreeValid.eq_root_of_one_leaf (hone : b.leafTotal = 1) (hi : i.toNat < b.leafTotal) :
    i = b.root :=
  BitVec.eq_of_toNat_eq (by rw [h.results.root]; omega)

/-- The root of two leaves or more is no leaf, so its empty label is no leaf's. -/
theorem Block.TreeValid.label_nonempty (htwo : 2 ≤ b.leafTotal) (hi : i.toNat < b.leafTotal)
    (hbits : IsPathLabel b i bits) : bits ≠ [] := by
  rintro rfl
  obtain rfl := isPathLabel_nil.1 hbits
  have := h.results.root
  omega

/-- Every edge leads to a lower index, so a label is no longer than the index is below the root's. -/
theorem Block.TreeValid.label_length_add_le (hbits : IsPathLabel b i bits) :
    bits.length + i.toNat ≤ 2 * b.leafTotal - 2 := by
  induction bits using List.reverseRecOn generalizing i with
  | nil => simp [isPathLabel_nil.1 hbits, h.results.root]
  | append_singleton bits bit ih =>
    obtain ⟨j, hj, hchild⟩ := isPathLabel_concat.1 hbits
    have hlt := h.child_lt (h.lt_of_isPathLabel hj) hchild
    have hle := ih hj
    rw [List.length_append, List.length_singleton]
    omega

/-- All nodes of a label but the last are internal, and there are one fewer of these than leaves (R64). -/
theorem Block.TreeValid.label_length_le (hbits : IsPathLabel b i bits) :
    bits.length ≤ b.leafTotal - 1 := by
  obtain rfl | ⟨bits, bit, rfl⟩ := List.eq_nil_or_concat' bits
  · exact Nat.zero_le _
  · obtain ⟨j, hj, htag, -⟩ := isPathLabel_concat.1 hbits
    have hinner := h.leafTotal_le_of_internal htag
    have hle := h.label_length_add_le hj
    have hpos := h.results.nonempty
    rw [List.length_append, List.length_singleton]
    omega

end validTree

/-- Settles O30: a label that begins with a leaf's ends at that leaf, and the root is a leaf only when it is
the one leaf. -/
theorem leafLabelsPrefixFree : Obligations.LeafLabelsPrefixFree := by
  intro c b h i j li lj hi _ hli hlj
  rw [h.results.leafcnt] at hi ⊢
  obtain ⟨htag, -⟩ := h.leaves.record i hi
  refine ⟨fun hne hprefix => hne (eq_of_isPathLabel_prefix htag hli hlj hprefix), fun htwo => ?_,
    fun hone => ?_⟩
  · exact List.length_pos_iff.2 (h.label_nonempty htwo hi hli)
  · have hroot := h.eq_root_of_one_leaf (h.results.rootLeaf.1 hone) hi
    exact h.pathLabel_unique hli (isPathLabel_nil.2 hroot)

/-- Settles O31: a label runs through internal nodes of strictly falling index, of which there are
LEAFCNT − 1. -/
theorem codewordLengthBound : Obligations.CodewordLengthBound := by
  intro c b h i bits _ hbits
  obtain ⟨-, hle⟩ := h.leafTotal_le
  rw [h.results.leafcnt]
  exact ⟨h.label_length_le hbits, by omega⟩

end Sys2Proof.Machine
end

section
/-! PROOFS. What READ_NODE, READ_LEAF and READ_FREQ do, and their words (R75, R76, R77). -/

namespace Sys2Proof.Machine

/-! The words of an idx form (R43, R45, R46). -/

section words

variable {v : CmdWord}

/-- A word is its opcode, its three reserved bits, and the index. -/
theorem high_append_idx {op : BitVec 4} {u : BitVec 7} (hu : u = op ++ 0#3) (hop : v.extractLsb' 12 4 = op)
    (hrsv : v.extractLsb' 9 3 = 0#3) : u ++ v.extractLsb' 0 9 = v := by
  have htop : v.extractLsb' 12 4 ++ v.extractLsb' 9 3 = v.extractLsb' 9 7 :=
    BitVec.extractLsb'_append_extractLsb'_eq_extractLsb' rfl
  have hall : v.extractLsb' 9 7 ++ v.extractLsb' 0 9 = v.extractLsb' 0 16 :=
    BitVec.extractLsb'_append_extractLsb'_eq_extractLsb' rfl
  rw [hu, ← hop, ← hrsv, htop, hall, BitVec.extractLsb'_eq_self]

theorem decode_readNode_of_fields (hop : v.extractLsb' 12 4 = 4#4) (hrsv : v.extractLsb' 9 3 = 0#3) :
    decode v = .instr (.readNode (v.extractLsb' 0 9)) :=
  decode_eq_instr_iff.2 (high_append_idx (by decide) hop hrsv)

theorem decode_readLeaf_of_fields (hop : v.extractLsb' 12 4 = 5#4) (hrsv : v.extractLsb' 9 3 = 0#3) :
    decode v = .instr (.readLeaf (v.extractLsb' 0 9)) :=
  decode_eq_instr_iff.2 (high_append_idx (by decide) hop hrsv)

theorem decode_readFreq_of_fields (hop : v.extractLsb' 12 4 = 6#4) (hhigh : v.extractLsb' 8 4 = 0#4) :
    decode v = .instr (.readFreq (v.extractLsb' 0 8)) :=
  decode_eq_instr_iff.2 (high_append_sym (by decide) hop hhigh)

end words

/-- A word with a reserved bit set raises ILLEGAL_CMD outside ERROR, whatever its opcode (R48, R84). -/
theorem runSampled_reservedBits_raises {c : Config} {b : Block c.freqBits} (hm : b.mode ≠ .error)
    (hrsv : rsvField b.cmd ≠ 0#3) :
    runSampled ⟨c, b⟩ = .next ⟨c, raiseError .illegalCmd b⟩ := by
  obtain ⟨why, hd⟩ := (decode_illegal_iff b.cmd).2 (.inr (.inl hrsv))
  rw [runSampled_mk, sampledEffect_of_illegal hd, illegalWord_raises hm]

/-! The effects. -/

section effects

variable {w : Nat} {b : Block w}

theorem readNodeBlock_badIndex {idx : Idx} (hm : b.mode = .built) (h : b.nodecnt.toNat ≤ idx.toNat) :
    readNodeBlock idx b = raiseError .badIndex b :=
  (readNodeBlock_executes hm idx).trans (readNodeBody_fails h)

theorem readLeafBlock_badIndex {k : Idx} (hm : b.mode = .built) (h : b.leafcnt.toNat ≤ k.toNat) :
    readLeafBlock k b = raiseError .badIndex b :=
  (readLeafBlock_executes hm k).trans (readLeafBody_fails h)

end effects

/-- Settles O13: the state check of R85, the index check of R75, and the idx form of R45. -/
theorem readNodeEffect : Obligations.ReadNodeEffect := by
  refine ⟨fun c b idx => ?_, fun v hop hrsv => decode_readNode_of_fields hop hrsv,
    fun c b hm _ hrsv => runSampled_reservedBits_raises hm hrsv⟩
  simp only [exec_mk, next_inj]
  refine ⟨fun hm hlt => ?_, fun hm hle => ?_, fun hm => ?_⟩
  · exact readNodeBlock_shows hm (Nat.not_le.2 hlt)
  · exact readNodeBlock_badIndex hm hle
  · exact effect_of_badState (by rw [hm]; rfl)

/-- Settles O14: the state check of R85, the index check of R76, and the idx form of R45. -/
theorem readLeafEffect : Obligations.ReadLeafEffect := by
  refine ⟨fun c b k => ?_, fun v hop hrsv => decode_readLeaf_of_fields hop hrsv,
    fun c b hm _ hrsv => runSampled_reservedBits_raises hm hrsv⟩
  simp only [exec_mk, next_inj]
  refine ⟨fun hm hlt => ?_, fun hm hle => ?_, fun hm => ?_⟩
  · exact readLeafBlock_shows hm (Nat.not_le.2 hlt)
  · exact readLeafBlock_badIndex hm hle
  · exact effect_of_badState (by rw [hm]; rfl)

/-- Settles O15: outside ERROR the state check of R85 lets READ_FREQ run, and its words have the sym form of R45. -/
theorem readFreqEffect : Obligations.ReadFreqEffect := by
  refine ⟨fun c b sym hm => ?_, fun v hop hhigh => decode_readFreq_of_fields hop hhigh,
    fun c b hm hop => runSampled_symWord_raises hm (.inr (.inr hop))⟩
  rw [exec_mk, next_inj]
  exact readFreqBlock_shows hm sym

end Sys2Proof.Machine
end

section
/-! PROOFS. What CLEAR does, and its word (R81, R93). -/

namespace Sys2Proof.Machine

/-- CLEAR passes the state check in every mode (R85). -/
theorem effect_clear {w : Nat} (b : Block w) : effect .clear b = emptied b := rfl

theorem freqAt_emptied {w : Nat} (b : Block w) (s : Sym) : (emptied b).freqAt s = 0#w :=
  tableAt_replicate 0#w s

/-- A word with CLEAR's opcode has a nonzero bit below it unless it is 0x0000, and is then illegal (R46, R48). -/
theorem clearWord_illegal {v : CmdWord} (hop : opField v = 0#4) (hv : v ≠ 0x0000#16) :
    ∃ why, decode v = .illegal why := by
  rw [decode_illegal_iff]
  by_cases hrsv : rsvField v = 0#3
  · have harg : argField v ≠ 0#9 := fun harg => hv (noneForm_word hrsv (by rw [hop]; rfl) harg).symm
    exact .inr (.inr (.inr ⟨.inl hop, harg⟩))
  · exact .inr (.inl hrsv)

/-- Settles O16: CLEAR empties the block in every mode, 0x0000 is its only word, and the other words with its
opcode are illegal (O4). -/
theorem clearEffect : Obligations.ClearEffect := by
  refine ⟨fun c b => ⟨emptied b, ?_, ?_⟩, decode_eq_clear.2 rfl, fun c b hop hword => ?_⟩
  · rw [exec_mk, effect_clear]
  · simp [freqAt_emptied, nilIdx]
  · obtain ⟨why, hd⟩ := clearWord_illegal hop hword
    exact illegalWordsAreReservedAndRaise.2 c b why hd

end Sys2Proof.Machine
end

section
/-! PROOFS. The error entry, the legality table, what ERROR ignores, and the two ways out of it (R82, R85, R92,
R93). -/

namespace Sys2Proof.Machine

/-! The error entry (R82). -/

section answers

variable {w : Nat} {b t : Block w}

/-- ERROR is entered only by the error entry. -/
theorem Answer.raises_of_enters_error {d : Decoded} (h : Answer d b t) (hb : b.mode ≠ .error)
    (ht : t.mode = .error) : ∃ code : ErrCode, code ≠ .ok ∧ t = raiseError code b := by
  cases h with
  | raises code hcode => exact ⟨code, hcode, rfl⟩
  | _ => simp_all

/-- In ERROR every accepted word but 0x0000 is ignored (R92). -/
theorem sampledEffect_of_mode_error (hm : b.mode = .error) (hcmd : b.cmd ≠ 0x0000#16) :
    sampledEffect b = ignored b :=
  (sampledEffect_answer b).eq_ignored hm (mt decode_eq_clear.1 hcmd)

end answers

/-- Settles O7: of the answers to a word only the error entry leads into ERROR. -/
theorem errorWritesExactlyFour : Obligations.ErrorWritesExactlyFour := by
  rintro c b t hb ht (⟨i, hrun⟩ | hrun)
  · rw [exec_mk, next_inj] at hrun
    exact (hrun ▸ effect_answer i b).raises_of_enters_error hb ht
  · rw [runSampled_mk, next_inj] at hrun
    exact (hrun ▸ sampledEffect_answer b).raises_of_enters_error hb ht

/-- Settles O8: the answers that write more than RESP belong to CLEAR or to a state outside ERROR. -/
theorem errorIgnoresAllButClear : Obligations.ErrorIgnoresAllButClear := by
  intro c b hm
  refine ⟨fun i hi => ?_, fun hcmd => ?_⟩
  · rw [exec_mk, effect_of_mode_error hi hm]
    rfl
  · rw [runSampled_mk, sampledEffect_of_mode_error hm hcmd]
    rfl

/-! The ways out of ERROR (R93). -/

section waysOut

variable {w : Nat} {b t : Block w}

/-- A step that leaves ERROR took a reset or a CLEAR. -/
theorem Transaction.clears_of_leaves_error (h : Transaction b t) (hm : b.mode = .error)
    (ht : t.mode ≠ .error) :
    ∃ p rest, b.host = p :: rest ∧ (p.rst = true ∨ (p.cmdValid = true ∧ p.cmd = 0x0000#16)) := by
  cases h with
  | @resets p rest hhost hrst => exact ⟨p, rest, hhost, .inl hrst⟩
  | completes =>
    have hsame : effect .build (withBuilding none b) = ignored (withBuilding none b) :=
      effect_of_mode_error (by simp) hm
    rw [hsame] at ht
    exact absurd hm ht
  | @accepts p rest hidle hhost hvalid =>
    by_cases hclear : p.cmd = 0x0000#16
    · exact ⟨p, rest, hhost, .inr ⟨hvalid, hclear⟩⟩
    · have hsame : sampledEffect (sample p (withHost rest b)) = ignored (sample p (withHost rest b)) :=
        sampledEffect_of_mode_error hm hclear
      rw [hsame] at ht
      exact absurd hm ht
  | passes => exact absurd hm ht

/-- An accepted CLEAR empties the block (R81). -/
theorem stepBlock_of_clear {p : PortIn w} {rest : List (PortIn w)} (hidle : b.building = none)
    (hhost : b.host = p :: rest) (hrst : p.rst = false) (hvalid : p.cmdValid = true)
    (hcmd : p.cmd = 0x0000#16) : stepBlock b = emptied (sample p (withHost rest b)) := by
  have hdec : decode (sample p (withHost rest b)).cmd = .instr .clear := decode_eq_clear.2 hcmd
  rw [stepBlock_of_offer hidle hhost hrst hvalid, sampledEffect_of_decode hdec, effect_clear]

end waysOut

/-- Settles O9: a step can leave ERROR only as a reset or as an accepted CLEAR, and both empty the block. -/
theorem errorLeftOnlyByClearOrReset : Obligations.ErrorLeftOnlyByClearOrReset := by
  refine ⟨fun c b t hm hstep ht => ?_, fun c b p rest _ hhost hway => ⟨stepBlock b, step_mk c b, ?_⟩⟩
  · rw [step_mk, next_inj] at hstep
    exact (hstep ▸ stepBlock_transaction b).clears_of_leaves_error hm ht
  · cases hrst : p.rst with
    | true => simp [stepBlock_of_rst hhost hrst]
    | false =>
      obtain ⟨hidle, hvalid, hcmd⟩ := hway.resolve_left (by simp [hrst])
      simp [stepBlock_of_clear hidle hhost hrst hvalid hcmd]

/-! The legality table (R85). -/

/-- Where the table lets a command execute, the command's own checks raise other codes than BAD_STATE (R57,
R75, R76, R86, R87). -/
theorem effect_executes_ne_badState {w : Nat} {i : Instr} {b : Block w}
    (h : legality i b.mode = .executes) :
    (effect i b).mode = .error → (effect i b).err ≠ .badState := by
  cases i with
  | clear => simp [effect_clear]
  | setFreq sym =>
    have hm : b.mode = .idle := legality_executes_iff.1 h
    simp [effect_setFreq_idle hm, hm]
  | loadPair sym =>
    have hm : b.mode = .idle := legality_executes_iff.1 h
    rw [effect, loadPairBlock_executes hm]
    obtain ⟨-, hbody⟩ | ⟨-, -, hbody⟩ | ⟨-, -, hbody⟩ := loadPairBody_cases sym b <;> simp [hbody, hm]
  | build =>
    have hbuild : effect .build b = buildBody b := by rw [effect, buildBlock, h, gate_executes]
    rw [hbuild]
    obtain ⟨-, hbody⟩ | ⟨-, -, hbody⟩ | ⟨-, -, hbody⟩ := buildBody_cases b <;> simp [hbody]
  | readNode idx =>
    have hm : b.mode = .built := legality_executes_iff.1 h
    rw [effect]
    by_cases hle : b.nodecnt.toNat ≤ idx.toNat
    · simp [readNodeBlock_badIndex hm hle]
    · simp [readNodeBlock_shows hm hle, hm]
  | readLeaf k =>
    have hm : b.mode = .built := legality_executes_iff.1 h
    rw [effect]
    by_cases hle : b.leafcnt.toNat ≤ k.toNat
    · simp [readLeafBlock_badIndex hm hle]
    · simp [readLeafBlock_shows hm hle, hm]
  | readFreq sym =>
    have hm : b.mode ≠ .error := legality_executes_iff.1 h
    rw [effect, readFreqBlock_shows hm]
    exact fun herr => absurd herr hm

/-- The BAD_STATE cells. -/
theorem legality_badState_of_cell {i : Instr} {m : Mode}
    (h : (m = .built ∧ ((∃ s, i = .setFreq s) ∨ (∃ s, i = .loadPair s) ∨ i = .build)) ∨
      (m = .idle ∧ ((∃ k, i = .readNode k) ∨ (∃ k, i = .readLeaf k)))) :
    legality i m = .badState := by
  obtain ⟨rfl, ⟨s, rfl⟩ | ⟨s, rfl⟩ | rfl⟩ | ⟨rfl, ⟨k, rfl⟩ | ⟨k, rfl⟩⟩ := h <;> rfl

/-- The cells in which a command executes. -/
theorem legality_executes_of_cell {i : Instr} {m : Mode}
    (h : i = .clear ∨ (m = .idle ∧ (∀ k, i ≠ .readNode k) ∧ (∀ k, i ≠ .readLeaf k)) ∨
      (m = .built ∧ ((∃ k, i = .readNode k) ∨ (∃ k, i = .readLeaf k) ∨ (∃ s, i = .readFreq s)))) :
    legality i m = .executes := by
  obtain rfl | ⟨rfl, hnode, hleaf⟩ | ⟨rfl, ⟨k, rfl⟩ | ⟨k, rfl⟩ | ⟨s, rfl⟩⟩ := h
  · rfl
  · cases i with
    | readNode k => exact absurd rfl (hnode k)
    | readLeaf k => exact absurd rfl (hleaf k)
    | _ => rfl
  all_goals rfl

/-- Settles O10: the state check answers in the BAD_STATE cells, O8 gives the ERROR column, the commands' own
checks never raise BAD_STATE, and O4 gives the illegal words. -/
theorem legalityTableCells : Obligations.LegalityTableCells := by
  intro c b
  refine ⟨fun i hcell => ?_, fun i hm => (errorIgnoresAllButClear c b hm).1 i, fun i t hcell hrun => ?_,
    illegalWordsAreReservedAndRaise.2 c b⟩
  · rw [exec_mk, effect_of_badState (legality_badState_of_cell hcell)]
    rfl
  · rw [exec_mk, next_inj] at hrun
    exact hrun ▸ effect_executes_ne_badState (legality_executes_of_cell hcell)

/-! A clock edge in ERROR (R104, log 11). -/

section clock

variable {w : Nat} {b : Block w} {p : PortIn w}

theorem clockBlock_of_host {rest : List (PortIn w)} (hhost : b.host = p :: rest) :
    clockBlock b = edgeBlock p (withHost rest b) := by
  simp [clockBlock, hhost]

theorem startsBuild_of_mode_error (hm : b.mode = .error) : startsBuild b = false := by
  simp [startsBuild, hm]

/-- In ERROR no BUILD starts, so an accepted word has its effect at its edge. -/
theorem edgeBlock_of_mode_error (hidle : b.building = none) (hm : b.mode = .error) (hrst : p.rst = false)
    (hvalid : p.cmdValid = true) : edgeBlock p b = sampledEffect (sample p b) := by
  have hstart : startsBuild (sample p b) = false := startsBuild_of_mode_error hm
  simp [edgeBlock, hidle, hrst, hvalid, hstart]

end clock

/-- Settles O55: the BUILD starts nothing in ERROR, and the word is ignored like any other but CLEAR. -/
theorem buildIgnoredInErrorTakesOneEdge : Obligations.BuildIgnoredInErrorTakesOneEdge := by
  intro c b p rest hidle hm hhost hrst hvalid hcmd
  have hmode : (sample p (withHost rest b)).mode = .error := hm
  have hword : (sample p (withHost rest b)).cmd ≠ 0x0000#16 := by simp [hcmd]
  have hedge : edgeBlock p (withHost rest b) = sampledEffect (sample p (withHost rest b)) :=
    edgeBlock_of_mode_error hidle hm hrst hvalid
  rw [clockEdge_mk, clockBlock_of_host hhost, hedge, sampledEffect_of_mode_error hmode hword]
  rfl

end Sys2Proof.Machine
end

section
/-! PROOFS. Reset at either level, `cmd_ready`, and one clock edge: what it samples, and what the ports show while
BUSY (R99, R100, R103 to R106). -/

namespace Sys2Proof.Machine

variable {w : Nat} {b t : Block w} {p : PortIn w} {left : Nat}

/-! The ports of the handshake. -/

theorem ports_cmdReady_iff {rst : Bool} :
    (b.ports rst).cmdReady = true ↔ rst = false ∧ b.building = none := by
  have hport : (b.ports rst).cmdReady = (!rst && !b.busy) := rfl
  simp [hport, Block.busy]

/-- Settles O49: BUSY is a BUILD in progress. -/
theorem readyUnlessResetOrBuild : Obligations.ReadyUnlessResetOrBuild := fun _ _ _ => ports_cmdReady_iff

theorem stateField_of_building (h : b.building = some left) : b.stateField = busyCode := by
  simp [Block.stateField, Block.busy, h]

theorem errField_of_building (h : b.building = some left) : b.errField = 0#4 := by
  simp [Block.errField, Block.busy, h]

theorem errorOut_of_building (h : b.building = some left) : b.errorOut = false := by
  rw [Block.errorOut, stateField_of_building h]
  rfl

/-- Settles O53: BUSY hides STATE and ERR, and the other defined ports are the registers. -/
theorem busyPortsView : Obligations.BusyPortsView := by
  intro c b left rst h
  obtain ⟨hstate, -, -, herr, -⟩ := statusWord_fields b
  have hready : (b.ports rst).cmdReady = false :=
    Bool.eq_false_iff.2 fun hr => by simpa [h] using (ports_cmdReady_iff.1 hr).2
  have htag : b.rTag.bit = (match b.rTag with | .leaf => 0#1 | .internal => 1#1) := by
    cases b.rTag <;> rfl
  exact ⟨hstate.trans (stateField_of_building h), hready, herr.trans (errField_of_building h),
    errorOut_of_building h, rfl, htag, rfl, rfl, rfl, rfl, rfl⟩

/-! An edge, by what the host drives and whether a BUILD is in progress. -/

theorem edgeBlock_of_rst (hrst : p.rst = true) : edgeBlock p b = resetBlock b := if_pos hrst

/-- While BUSY an edge counts down or completes the BUILD, and reads no port but `rst` (R104, R105). -/
theorem edgeBlock_of_building (h : b.building = some left) (hrst : p.rst = false) :
    edgeBlock p b =
      if left ≤ 1 then effect .build (withBuilding none b) else withBuilding (some (left - 1)) b := by
  simp [edgeBlock, h, hrst]

theorem edgeBlock_of_no_offer (hidle : b.building = none) (hrst : p.rst = false)
    (hvalid : p.cmdValid = false) : edgeBlock p b = b := by
  simp [edgeBlock, hidle, hrst, hvalid]

theorem edgeBlock_of_offer (hidle : b.building = none) (hrst : p.rst = false) (hvalid : p.cmdValid = true) :
    edgeBlock p b =
      if startsBuild (sample p b) then beginBuild (sample p b) else sampledEffect (sample p b) := by
  simp [edgeBlock, hidle, hrst, hvalid]

theorem startsBuild_iff : startsBuild b = true ↔ b.cmd = 0x3000#16 ∧ b.mode ≠ .error := by
  simp [startsBuild, decode_eq_build]

/-! What an edge does to the sampled command and to the queue (R103). -/

/-- No answer to a word touches the sampled command, the queue or a BUILD in progress. -/
theorem Answer.keeps_hostSide {d : Decoded} (h : Answer d b t) :
    t.cmd = b.cmd ∧ t.din = b.din ∧ t.host = b.host ∧ t.building = b.building := by
  cases h <;> exact ⟨rfl, rfl, rfl, rfl⟩

theorem edgeBlock_hostSide_of_building (h : b.building = some left) (hrst : p.rst = false) :
    (edgeBlock p b).cmd = b.cmd ∧ (edgeBlock p b).din = b.din ∧ (edgeBlock p b).host = b.host := by
  rw [edgeBlock_of_building h hrst]
  split
  · obtain ⟨hcmd, hdin, hhost, -⟩ := (effect_answer .build (withBuilding none b)).keeps_hostSide
    exact ⟨hcmd, hdin, hhost⟩
  · exact ⟨rfl, rfl, rfl⟩

theorem edgeBlock_hostSide_of_offer (hidle : b.building = none) (hrst : p.rst = false)
    (hvalid : p.cmdValid = true) :
    (edgeBlock p b).cmd = p.cmd ∧ (edgeBlock p b).din = p.din ∧ (edgeBlock p b).host = b.host := by
  rw [edgeBlock_of_offer hidle hrst hvalid]
  split
  · exact ⟨rfl, rfl, rfl⟩
  · obtain ⟨hcmd, hdin, hhost, -⟩ := (sampledEffect_answer (sample p b)).keeps_hostSide
    exact ⟨hcmd, hdin, hhost⟩

/-- Settles O50: a BUSY edge reads `rst` alone, and only an accepting edge samples. -/
theorem offerWithoutReadyHasNoEffect : Obligations.OfferWithoutReadyHasNoEffect := by
  intro c b p q rest hp hq
  have hedge : ∀ r : PortIn c.freqBits,
      clockEdge ⟨c, { b with host := r :: rest }⟩ = .next ⟨c, edgeBlock r (withHost rest b)⟩ :=
    fun r => clockEdge_mk c { b with host := r :: rest }
  rw [hedge p, hedge q]
  refine ⟨fun hbusy => ?_, fun hidle hvalid => ?_, fun hidle hvalid => ?_⟩
  · obtain ⟨left, hleft⟩ := Option.ne_none_iff_exists'.1 hbusy
    have hwait : (withHost rest b).building = some left := hleft
    refine ⟨?_, _, rfl, edgeBlock_hostSide_of_building hwait hp⟩
    rw [edgeBlock_of_building hwait hp, edgeBlock_of_building hwait hq]
  · have hwait : (withHost rest b).building = none := hidle
    rw [edgeBlock_of_no_offer hwait hp hvalid]
    rfl
  · have hwait : (withHost rest b).building = none := hidle
    exact ⟨_, rfl, edgeBlock_hostSide_of_offer hwait hp hvalid⟩

/-- Settles O51: where no BUILD starts, the accepting edge is the transaction. -/
theorem otherCommandsTakeOneEdge : Obligations.OtherCommandsTakeOneEdge := by
  intro c b p rest hidle hhost hrst hvalid hcmd
  have hstart : ¬ startsBuild (sample p (withHost rest b)) = true :=
    fun h => hcmd (decode_eq_build.2 (startsBuild_iff.1 h).1)
  have hwait : (withHost rest b).building = none := hidle
  have hedge : clockBlock b = stepBlock b := by
    rw [clockBlock_of_host hhost, edgeBlock_of_offer hwait hrst hvalid, if_neg hstart,
      stepBlock_of_offer hidle hhost hrst hvalid]
  have hdone : (stepBlock b).building = none := by
    rw [stepBlock_of_offer hidle hhost hrst hvalid]
    obtain ⟨-, -, -, hbuilding⟩ := (sampledEffect_answer (sample p (withHost rest b))).keeps_hostSide
    exact hbuilding.trans hidle
  exact ⟨stepBlock b, hedge ▸ clockEdge_mk c b, step_mk c b, hdone, ports_cmdReady_iff.2 ⟨rfl, hdone⟩⟩

/-! Reset (R99, R100). -/

theorem resetBlock_statusWord (b : Block w) : (resetBlock b).statusWord = 0x0000#16 := by
  have hbuild : (resetBlock b).building = none := rfl
  rw [Block.statusWord, errField_eq hbuild, stateField_eq hbuild, Block.rootLeafField, shown_eq hbuild]
  simp [ErrCode.code, Mode.code, bit]

/-- Settles O6: both levels look at `rst` first, and do the same reset. -/
theorem resetEdgeWinsAndClearsAll : Obligations.ResetEdgeWinsAndClearsAll := by
  intro c b p rest hhost hrst
  have hstep : step ⟨c, b⟩ = .next ⟨c, resetBlock (withHost rest b)⟩ := by
    rw [step_mk, stepBlock_of_rst hhost hrst]
    rfl
  have hedge : clockEdge ⟨c, b⟩ = .next ⟨c, resetBlock (withHost rest b)⟩ := by
    rw [clockEdge_mk, clockBlock_of_host hhost, edgeBlock_of_rst hrst]
  exact ⟨rfl, _, hstep, hedge, resetBlock_statusWord _, rfl, rfl, rfl, rfl, rfl, rfl, rfl, rfl, rfl, rfl, rfl,
    rfl, rfl, rfl, freqAt_emptied (withHost rest b), rfl, rfl⟩

end Sys2Proof.Machine
end

section
/-! PROOFS. A BUILD at clock level is the atomic BUILD, BUILD_LATENCY edges later (R105, R110). -/

namespace Sys2Proof.Machine

variable {w : Nat} {b : Block w} {left : Nat}

/-! BUILD does not look at the queue, and the draws name the new NEXT alone (R23, R72). -/

theorem buildWrites_of_host_draws (hne : presentSyms b.freq ≠ []) (hsum : tableSum b.freq ≤ 2 ^ w - 1)
    (host : List (PortIn w)) (draws : Nat) :
    buildWrites { b with host := host, draws := draws } =
      { buildWrites b with
        host := host, draws := draws, nextIdx := Config.freeBits 9 (.allocNextBuilt draws) } := by
  have hlen := builtForest_nodes_length (d := b.draws) hne hsum
  have hroot := builtForest_root_toNat (d := b.draws) hne hsum
  have hpos := List.length_pos_iff.2 hne
  rw [buildWrites_eq, buildWrites_eq, builtForest_draw hsum draws b.draws,
    nodeIn_draw (i := rootOf _) (by omega) draws b.draws,
    nodeIn_draw (i := 0#9) (by simp; omega) draws b.draws]
  rfl

/-- Outside ERROR, whether BUILD fails, and with which code, depends on STATE and the table alone (R57, R85). -/
theorem effect_build_fails_or_builds (hm : b.mode ≠ .error) :
    (∃ code, ∀ t : Block w, t.mode = b.mode → t.freq = b.freq → effect .build t = raiseError code t) ∨
      (b.mode = .idle ∧ presentSyms b.freq ≠ [] ∧ tableSum b.freq ≤ 2 ^ w - 1) := by
  cases hmode : b.mode with
  | idle =>
    by_cases hempty : presentSyms b.freq = []
    · exact .inl ⟨_, fun t ht hfreq => effect_build_emptyTable ht (hfreq ▸ hempty)⟩
    by_cases hsum : 2 ^ w - 1 < tableSum b.freq
    · exact .inl ⟨_, fun t ht hfreq => effect_build_freqOverflow ht (hfreq ▸ hempty) (hfreq ▸ hsum)⟩
    · exact .inr ⟨rfl, hempty, Nat.not_lt.1 hsum⟩
  | built => exact .inl ⟨_, fun t ht _ => effect_of_badState (by rw [ht]; rfl)⟩
  | error => exact absurd hmode hm

/-- Outside ERROR, BUILD's effect does not depend on the queue or on the draws, but for NEXT after a successful
BUILD. -/
theorem effect_build_of_host_draws (hm : b.mode ≠ .error) (host : List (PortIn w)) (draws : Nat) :
    ∃ v : Idx, ((effect .build b).mode = .error → v = b.nextIdx) ∧
      effect .build { b with host := host, draws := draws } =
        { effect .build b with host := host, draws := draws, nextIdx := v } := by
  obtain ⟨code, hfails⟩ | ⟨hidle, hne, hsum⟩ := effect_build_fails_or_builds hm
  · refine ⟨b.nextIdx, fun _ => rfl, ?_⟩
    rw [hfails b rfl rfl, hfails { b with host := host, draws := draws } rfl rfl]
    rfl
  · have hbuild : effect .build b = buildWrites b := buildBlock_builds hidle hne hsum
    refine ⟨Config.freeBits 9 (.allocNextBuilt draws), fun herr => by simp [hbuild] at herr, ?_⟩
    rw [hbuild, ← buildWrites_of_host_draws hne hsum]
    exact buildBlock_builds hidle hne hsum

/-! The edges of a BUILD in progress (R105). -/

/-- An edge while BUSY with no reset; where the host drives nothing, `rst` is 0. -/
theorem clockBlock_of_building (h : b.building = some left) (hrst : ∀ p ∈ b.host.head?, p.rst = false) :
    clockBlock b =
      if left ≤ 1 then effect .build (withBuilding none (withHost b.host.tail b))
      else withBuilding (some (left - 1)) (withHost b.host.tail b) := by
  cases hhost : b.host with
  | nil =>
    have hkept : withHost [] b = b := by rw [← hhost]; rfl
    rw [clockBlock, hhost, List.tail_nil, hkept]
    exact edgeBlock_of_building h rfl
  | cons p rest =>
    rw [clockBlock_of_host hhost]
    exact edgeBlock_of_building h (hrst p (by simp [hhost]))

theorem head?_drop_mem_take {α : Type} {l : List α} {k : Nat} {x : α} (h : x ∈ (l.drop k).head?) :
    x ∈ l.take (k + 1) :=
  List.mem_of_getElem? (i := k) (by rwa [List.getElem?_take_of_succ, ← List.head?_drop])

/-- Before its last edge a BUILD in progress counts down, and nothing else changes but the queue. -/
theorem clockBlock_iterate_of_building (h : b.building = some left) {k : Nat} (hk : k < left)
    (hrst : ∀ q ∈ b.host.take k, q.rst = false) :
    clockBlock^[k] b = withBuilding (some (left - k)) (withHost (b.host.drop k) b) := by
  induction k with
  | zero =>
    change b = withBuilding (some left) b
    rw [← h]
    rfl
  | succ k ih =>
    have hprev := ih (by omega) fun q hq => hrst q (List.take_subset_take_left _ (by omega) hq)
    rw [Function.iterate_succ_apply', hprev,
      clockBlock_of_building rfl fun q hq => hrst q (head?_drop_mem_take hq), if_neg (by omega)]
    simp [withBuilding, withHost, Nat.sub_sub]

/-- The last edge of a BUILD in progress has BUILD's effect. -/
theorem clockBlock_iterate_completes (h : b.building = some left) (hpos : 1 ≤ left)
    (hrst : ∀ q ∈ b.host.take left, q.rst = false) :
    clockBlock^[left] b = effect .build (withBuilding none (withHost (b.host.drop left) b)) := by
  obtain ⟨k, rfl⟩ := Nat.exists_eq_add_of_le' hpos
  rw [Function.iterate_succ_apply', clockBlock_iterate_of_building h (by omega) fun q hq =>
      hrst q (List.take_subset_take_left _ (by omega) hq),
    clockBlock_of_building rfl fun q hq => hrst q (head?_drop_mem_take hq), if_pos (by omega)]
  simp [withBuilding, withHost]

/-- The edge that accepts a BUILD outside ERROR starts it (R105). -/
theorem clockBlock_of_build {p : PortIn w} {rest : List (PortIn w)} (hidle : b.building = none)
    (hmode : b.mode ≠ .error) (hhost : b.host = p :: rest) (hrst : p.rst = false) (hvalid : p.cmdValid = true)
    (hcmd : p.cmd = 0x3000#16) : clockBlock b = beginBuild (sample p (withHost rest b)) := by
  have hstart : startsBuild (sample p (withHost rest b)) = true := startsBuild_iff.2 ⟨hcmd, hmode⟩
  have hwait : (withHost rest b).building = none := hidle
  rw [clockBlock_of_host hhost, edgeBlock_of_offer hwait hrst hvalid, if_pos hstart]

theorem stepBlock_of_build {p : PortIn w} {rest : List (PortIn w)} (hidle : b.building = none)
    (hhost : b.host = p :: rest) (hrst : p.rst = false) (hvalid : p.cmdValid = true)
    (hcmd : p.cmd = 0x3000#16) : stepBlock b = effect .build (sample p (withHost rest b)) := by
  have hdec : decode (sample p (withHost rest b)).cmd = .instr .build := decode_eq_build.2 hcmd
  rw [stepBlock_of_offer hidle hhost hrst hvalid, sampledEffect_of_decode hdec]

/-- Settles O52: the accepting edge starts the BUILD, the edges up to the last count it down, and the last one
has the effect of the transaction. -/
theorem clockedBuildRefinesAtomicBuild : Obligations.ClockedBuildRefinesAtomicBuild := by
  intro c b p rest hidle hmode hhost hrst hvalid hcmd hquiet
  have hfirst := clockBlock_of_build hidle hmode hhost hrst hvalid hcmd
  have hstep := stepBlock_of_build hidle hhost hrst hvalid hcmd
  have hbusy : (beginBuild (sample p (withHost rest b))).building = some (buildLatency b.freq) := rfl
  have hpos : 1 ≤ buildLatency b.freq := Nat.succ_pos _
  refine ⟨hpos, fun k hk hle => ?_, ?_⟩
  · obtain ⟨j, rfl⟩ := Nat.exists_eq_add_of_le' hk
    have hrun := clockBlock_iterate_of_building hbusy (k := j) (by omega) fun q hq =>
      hquiet q (List.take_subset_take_left _ (by omega) hq)
    rw [run_clock_mk, Function.iterate_succ_apply, hfirst, hrun]
    simp [withBuilding, withHost, beginBuild, sample]
  · have hrun := clockBlock_iterate_completes hbusy hpos hquiet
    obtain ⟨v, hnext, heffect⟩ := effect_build_of_host_draws (b := sample p (withHost rest b)) hmode
      (rest.drop (buildLatency b.freq)) (b.draws + 1)
    refine ⟨stepBlock b, v, step_mk c b, fun herr => hnext (hstep ▸ herr), ?_⟩
    rw [run_clock_mk, Function.iterate_succ_apply, hfirst, hrun, hstep, ← heffect]
    simp [withBuilding, withHost, beginBuild, sample, hidle]

end Sys2Proof.Machine
end
